-- ==== Sys2Proof/Word.lean ====
section
/-! DEFINITION. The block's data types: the 8-bit byte, the 16-bit value, the byte string of a fixed length
(spec/00_scope.md R11 to R13). Every value is unsigned (R11). -/

namespace Sys2Proof

/-- A byte: 8 bits, bit 0 least significant (R12). -/
abbrev Byte := BitVec 8

/-- A 16-bit unsigned value: a checksum, the sequence counter, an error code (R7). -/
abbrev Half := BitVec 16

/-- `Bytes n` is the type of sequences of exactly `n` bytes (R13). -/
abbrev Bytes (n : Nat) := Vector Byte n

/-- `n` bytes 0x00 as a value of `Bytes n` (R13 `zeros(n)`). -/
def zeroBytes (n : Nat) : Bytes n := Vector.replicate n 0

end Sys2Proof
end

