-- ==== Sys2Proof/Config.lean ====
section
/-! DEFINITION. What an implementation fixes: the configuration record `Cfg` of spec/00_scope.md R8, with the
host-side parameter of spec/45_payload_templates.md R264, and the free values of the two host-side reply fields the
spec leaves open (R277, R278). Reset holds one record (Machine/Parameters.lean); every other definition and
statement takes the record that the state at hand holds. -/

namespace Sys2Proof

/-- The parameters DOC0 needs and does not give (R8), and `SENDCODE_PREFIX_LEN` (R264). Which records are
well formed is `Cfg.WellFormed` (R9). -/
structure Cfg where
  /-- `KEY0`, the pre-shared key. -/
  key0 : Bytes 16
  /-- `IV0`, the pre-shared initialization vector. -/
  iv0 : Bytes 16
  /-- `SID0`, the session id before the handshake reply. -/
  sid0 : Bytes 4
  /-- `HDR_TEMPLATE`, the constant bytes of the command header. -/
  hdrTemplate : Bytes 56
  /-- `OFF_PKTCS`, the whole-packet checksum (2 bytes). -/
  offPktcs : Nat
  /-- `OFF_CMD`, the command byte. -/
  offCmd : Nat
  /-- `OFF_SEQ`, the sequence number (2 bytes). -/
  offSeq : Nat
  /-- `OFF_IDENT`, the reversed identity (6 bytes). -/
  offIdent : Nat
  /-- `OFF_SID`, the session id (4 bytes). -/
  offSid : Nat
  /-- `OFF_PAYCS`, the payload checksum (2 bytes). -/
  offPaycs : Nat
  /-- `OFF_RERR`, the device-reported error code of a response header. -/
  offRerr : Nat
  /-- `RERR_LEN`, its length in bytes. -/
  rerrLen : Nat
  /-- `OFF_RCMD`, the command byte of a response header. -/
  offRcmd : Nat
  /-- `HS_KEY_OFF`, the new key's place in the deciphered handshake payload. -/
  hsKeyOff : Nat
  /-- `HS_KEY_LEN`, its length; R9 admits 16 only. -/
  hsKeyLen : Nat
  /-- `DISC_OFF_CS`, the checksum of the discovery packet (2 bytes). -/
  discOffCs : Nat
  /-- `HELLO_IDENT_MAP`: identity byte `i` is hello-response byte `helloIdentMap[i]`. -/
  helloIdentMap : Vector Nat 6
  /-- `HELLO_OFF_DEVTYPE`, the device-type id of the hello response (2 bytes). -/
  helloOffDevtype : Nat
  /-- `MAX_DGRAM`, the largest byte count a buffer holds. -/
  maxDgram : Nat
  /-- `RX_STOP_ON_ERR`, whether PARSE stops after reporting a nonzero error code (R223). -/
  rxStopOnErr : Bool
  /-- `SENDCODE_PREFIX_LEN`, a host-side parameter (R264). -/
  sendcodePrefixLen : Nat
  deriving DecidableEq, Repr

/-- FREE VALUE (log 9). The offset of the sweep-result byte in a data reply: R277 says "DOC0 does not say at which
offset that byte is". -/
opaque Config.sweepOffset : Nat

/-- FREE VALUE (log 10). How many bytes of a data reply the RF-data decoding reads: R274 has the host ignore a payload too
short for them, and R278 gives no contents to count. -/
opaque Config.rfDataNeed : Nat

/-- FREE VALUE (log 10). The bytes the secondary RF-data notification carries, out of the reply's plaintext:
R278 says "DOC0 does not say which bytes the notification carries". -/
opaque Config.rfDataBytes : List Byte → List Byte

end Sys2Proof
end

