-- ==== Sys2Proof/Machine/Parameters.lean ====
section
/-! DEFINITION. The well-formedness of a configuration (spec/00_scope.md R9) and the reference configuration (R8),
which State.reset holds. -/

namespace Sys2Proof

/-- Two byte ranges, each an offset and a length, share no byte. -/
abbrev Disjoint2 (p q : Nat × Nat) : Prop := p.1 + p.2 ≤ q.1 ∨ q.1 + q.2 ≤ p.1

/-- The six command-header fields as byte ranges (R8, R60). -/
def Cfg.cmdFields (c : Cfg) : List (Nat × Nat) :=
  [(c.offPktcs, 2), (c.offCmd, 1), (c.offSeq, 2), (c.offIdent, 6), (c.offSid, 4), (c.offPaycs, 2)]

/-- R9: when a configuration is well formed. Two clauses stand beside R9's: `MAX_DGRAM` is at least 56 + 16 (R8),
and the send-code prefix has its first byte 0x02 (R264, DEDUCED, log 8). -/
abbrev Cfg.WellFormed (c : Cfg) : Prop :=
  (∀ f ∈ c.cmdFields, f.1 + f.2 ≤ 56) ∧
  c.cmdFields.Pairwise Disjoint2 ∧
  c.offRerr + c.rerrLen ≤ 56 ∧
  c.offRcmd + 1 ≤ 56 ∧
  Disjoint2 (c.offRerr, c.rerrLen) (c.offRcmd, 1) ∧
  (c.rerrLen = 1 ∨ c.rerrLen = 2) ∧
  c.discOffCs + 2 ≤ 48 ∧
  c.hsKeyLen = 16 ∧
  Disjoint2 (c.hsKeyOff, 16) (0, 4) ∧
  c.hdrTemplate.toList.getD c.offPktcs 0 = 0 ∧
  c.hdrTemplate.toList.getD (c.offPktcs + 1) 0 = 0 ∧
  72 ≤ c.maxDgram ∧
  1 ≤ c.sendcodePrefixLen

/-- The reference configuration of R8 and R264. PRESUMED (log 1): the spec marks its values as general knowledge
of the Broadlink protocol family. -/
def Cfg.reference : Cfg where
  key0 := #v[0x09, 0x76, 0x28, 0x34, 0x3f, 0xe9, 0x9e, 0x23, 0x76, 0x5c, 0x15, 0x13, 0xac, 0xcf, 0x8b, 0x02]
  iv0 := #v[0x56, 0x2e, 0x17, 0x99, 0x6d, 0x09, 0x3d, 0x28, 0xdd, 0xb3, 0xba, 0x69, 0x5a, 0x2e, 0x6f, 0x58]
  sid0 := #v[0x00, 0x00, 0x00, 0x00]
  hdrTemplate := #v[
    0x5a, 0xa5, 0xaa, 0x55, 0x5a, 0xa5, 0xaa, 0x55, 0x00, 0x00, 0x00, 0x00, 0x00, 0x00, 0x00, 0x00,
    0x00, 0x00, 0x00, 0x00, 0x00, 0x00, 0x00, 0x00, 0x00, 0x00, 0x00, 0x00, 0x00, 0x00, 0x00, 0x00,
    0x00, 0x00, 0x00, 0x00, 0x2a, 0x27, 0x00, 0x00, 0x00, 0x00, 0x00, 0x00, 0x00, 0x00, 0x00, 0x00,
    0x00, 0x00, 0x00, 0x00, 0x00, 0x00, 0x00, 0x00]
  offPktcs := 0x20
  offCmd := 0x26
  offSeq := 0x28
  offIdent := 0x2a
  offSid := 0x30
  offPaycs := 0x34
  offRerr := 0x22
  rerrLen := 2
  offRcmd := 0x26
  hsKeyOff := 4
  hsKeyLen := 16
  discOffCs := 0x20
  helloIdentMap := #v[0x3f, 0x3e, 0x3d, 0x3c, 0x3b, 0x3a]
  helloOffDevtype := 0x34
  maxDgram := 65507
  rxStopOnErr := false
  sendcodePrefixLen := 4

end Sys2Proof
end

