-- ==== Sys2Proof/Syntax.lean ====
section
/-! DEFINITION. The rows of spec/opcode_table.json, one constructor each (spec/30_encoding.md R100 to R113), and the
seven formats their bytes belong to (R80, R85, R86, R101, R102, R113). Operands travel on ports, not in an
instruction word (R112), so only the three rows that stand for a class of bytes carry one. -/

namespace Sys2Proof

/-- The formats of the table. One byte has a meaning only together with its format: 0x01 is CSUM in `op`,
check-temperature in `pay16` and temperature in `reply`. -/
inductive Format where
  /-- The `op` port (R80). -/
  | op
  /-- The byte at `OFF_RCMD` of a response packet (R101). -/
  | rspcmd
  /-- The byte at `OFF_CMD` of a command packet (R102). -/
  | cmdpkt
  /-- Byte 0 of a 16-byte command payload (R85, R103). -/
  | pay16
  /-- Byte 0 of a send-code payload (R85, R103). -/
  | paycode
  /-- Byte 0 of a deciphered data reply (R86, R104). -/
  | reply
  /-- A pseudo-operation: the `op` byte of the operation it expands to (R113). -/
  | pseudo
  deriving DecidableEq, Repr

/-- One constructor per row of spec/opcode_table.json. -/
inductive Instr where
  -- host operations (R100)
  | csum
  | csumvfy
  | cbcenc
  | cbcdec
  | openOp
  | frame
  | parse
  | disc
  | hello
  /-- An operation number outside the nine (R106), with that number. -/
  | opReserved (op : Byte)
  -- response command bytes (R101)
  | rspHs
  | rspDataEe
  | rspDataEf
  /-- Any other response command byte (R107, R228), with that byte. -/
  | rspOther (rcmd : Byte)
  -- the outer command byte of dispatcher commands (R102)
  | cmdOut
  -- payload operation codes (R103)
  | payChecktemp
  | paySendcode
  | payEnterlearn
  | payCheckdata
  | payCancel
  | payRfsweep
  | payChecksweep
  | payFindrf
  -- reply parameter ids (R104)
  | replyTemp
  | replyCode
  | replySweep
  | replyRfdata
  /-- Any other parameter id (R279), with that byte. -/
  | replyOther (param : Byte)
  -- pseudo-operations (R113)
  | sendChecktemp
  | sendEnterlearn
  | sendCheckdata
  | sendCancel
  | sendRfsweep
  | sendChecksweep
  | sendFindrf
  | sendCode
  | vfypkt
  | vfydisc
  deriving DecidableEq, Repr

end Sys2Proof
end

