-- ==== Sys2Proof/Machine/State.lean ====
section
/-! DEFINITION. The state of the block (spec/10_state.md), its outputs (spec/60_exceptions.md R300 to R306), the host
actions not yet performed, and the reasons a step can stop. Plain data throughout. -/

namespace Sys2Proof.Machine

/-- A buffer: one (address, byte) pair per byte it holds, addresses 0, 1, 2 and on up to its length (R29, R30). An
address that is not listed holds no byte. The canonical form is `Memory.wf`. -/
abbrev Memory := List Host.Cell

/-- Result codes of an operation (R301). -/
inductive ResCode where
  | ok
  | eOp
  | eState
  | eAlign
  | eLen
  | eRange
  deriving DecidableEq, Repr

/-- Verdicts of PARSE and HELLO (R303). -/
inductive Verdict where
  | ignored
  | ready
  | data
  | unknown
  | hello
  deriving DecidableEq, Repr

/-- Reasons of a `V_IGNORED` verdict (R304). -/
inductive Why where
  | noReason
  | short
  | align
  | hsLen
  | devErr
  deriving DecidableEq, Repr

/-- Events of PARSE (R305). -/
inductive Event where
  | ready
  | devErr (code : Half)
  | data
  | unknown (cmd : Byte)
  deriving DecidableEq, Repr

/-- The result ports after one operation (R31). A port the operation gives no value to is `none`: R300 calls such a
port not meaningful (log 5). -/
structure Result where
  res : ResCode
  val16 : Option Half := Option.none
  okFlag : Option Bool := Option.none
  verdict : Option Verdict := Option.none
  why : Option Why := Option.none
  rcmd : Option Byte := Option.none
  rerr : Option Half := Option.none
  oident : Option (Bytes 6) := Option.none
  /-- The events in the order they are emitted; `DEVERR`, if any, comes first. -/
  events : List Event := []
  deriving DecidableEq, Repr

/-- The operand ports (R31). `seq0` is the draw of OPEN (R10): any value the environment puts there. -/
structure Ports where
  op : Byte
  cmd : Byte
  ident : Bytes 6
  /-- Below `MAX_DGRAM` (R31): checked where the host presents it, and a clause of the invariant (log 23). -/
  off : Nat
  seq0 : Half
  deriving DecidableEq, Repr

/-- The notifications the host derives from a data reply (R280); the block's own two are `Event.ready` and
`Event.devErr`. -/
inductive Notification where
  /-- The temperature in tenths of a degree (R275). -/
  | temperature (tenths : Nat)
  | rawData (code : List Byte)
  | sweepResult (success : Bool)
  | rfData (data : List Byte)
  deriving DecidableEq, Repr

/-- What the host does to the block, one step each (log 6). -/
inductive HostAction where
  /-- The host's reset request (R35). -/
  | reset
  /-- The host fills `IB` between operations (R30). -/
  | fill (data : List Byte)
  /-- The host presents an operation number and its operands (R80, R31). -/
  | issue (ports : Ports)
  /-- The host performs a row of the opcode table by its name: a pseudo-operation (R113), a payload template
  (R261), a reply decoding (R274), an operation with the operands that stand on the ports. -/
  | perform (i : Instr)
  /-- The host decodes the data reply that the last PARSE left in `OB` (R274). -/
  | decodeData
  deriving DecidableEq, Repr

/-- The whole machine. -/
structure State where
  /-- The configuration (R8), fixed for the machine. -/
  cfg : Cfg
  /-- `x[0]` (R20). -/
  key : Bytes 16
  /-- `x[1]`. -/
  iv : Bytes 16
  /-- `x[2]`. -/
  sid : Bytes 4
  /-- `x[3]`. -/
  seq : Half
  /-- `x[4]`. -/
  ident : Bytes 6
  /-- `x[5]`: bit 0 `OPENED`, bit 1 `AUTH`, bits 7:2 zero. -/
  status : Byte
  /-- The input buffer (R30). -/
  ib : Memory
  /-- The output buffer (R30). -/
  ob : Memory
  /-- The operand ports (R31). -/
  ports : Ports
  /-- The result ports of the last operation since reset, `none` before the first (log 5). -/
  out : Option Result
  /-- The model's own: whether `OB` holds the plaintext of a PARSE with verdict `V_DATA`, the payload of R274
  (log 15). -/
  dataReply : Bool
  /-- The model's own: host actions not yet performed, the next one first (log 6). -/
  queue : List HostAction
  /-- The model's own: the last host-side notification (log 15). -/
  note : Option Notification
  deriving DecidableEq, Repr

/-- The reasons a step can stop with a fault: there is none. "Nothing in this block is treated as stuck or fault"
(spec/93_implementation_defined.md part 1; log 7). -/
inductive Fault where
  deriving DecidableEq, Repr

/-- The reasons a step can be refused by the model. The block's own refusals `E_*` are not among them: they are
results of a step that goes on (R300). -/
inductive Refusal where
  /-- Raised by `exec` for an instruction without a meaning; no arm raises it now. Safe: the machine stops. -/
  | notModelled (mnemonic : String)
  /-- Raised by `step` on a configuration that is not well formed, which R9 says a model refuses. Safe. -/
  | configNotWellFormed
  /-- Raised by `step` when the host performs a row whose byte lies outside the row's class, which is no
  instruction. Safe. -/
  | illFormedInstruction
  /-- Raised by `hostFill` when the host puts more bytes in `IB` than `MAX_DGRAM`, which a buffer cannot hold
  (R30). Safe (log 16). -/
  | inputTooLong
  /-- Raised by `step` when the host presents a value on port `off` that is not below `MAX_DGRAM`, which the port
  cannot carry (R31). Safe (log 23). -/
  | offsetTooLarge
  deriving DecidableEq, Repr

/-- The outcome of a step of this machine. -/
abbrev Outcome := Host.Outcome State Fault Refusal

/-- The operand ports at reset: zero on every port. DESIGN CHOICE (log 4): the spec gives them no reset value. -/
def Ports.idle : Ports where
  op := 0
  cmd := 0
  ident := zeroBytes 6
  off := 0
  seq0 := 0

/-- The machine right after reset under configuration `c` (R35). `SEQ` and `IDENT` hold no value there; zero is a
DESIGN CHOICE (log 2). -/
def State.resetWith (c : Cfg) : State where
  cfg := c
  key := c.key0
  iv := c.iv0
  sid := c.sid0
  seq := 0
  ident := zeroBytes 6
  status := 0x00#8
  ib := []
  ob := []
  ports := Ports.idle
  out := none
  dataReply := false
  queue := []
  note := none

/-- The machine right after reset, under the reference configuration (PRESUMED, log 1). -/
def State.reset : State := State.resetWith Cfg.reference

end Sys2Proof.Machine
end

