-- ==== Sys2Proof/Machine/Ops.lean ====
section
/-! DEFINITION. The primitives over byte sequences (spec/00_scope.md R13 to R15), the two buffers as byte sequences
(spec/10_state.md R29, R30), the registers by number (R20), and the ways an operation ends: done, or refused
(spec/60_exceptions.md R300). The block takes no exception (R308); `refuse` is the one shared operation in its place. -/

namespace Sys2Proof.Machine

/-! ### Byte sequences (R13, R14) -/

/-- `B[o]` (R13). Defined below `len(B)`; the rules read nowhere else (R286), so the value past the end is never
used (log 18). -/
def byteAt (b : List Byte) (o : Nat) : Byte := b.getD o 0

/-- `B[a..b)` (R13). -/
def slice (b : List Byte) (lo hi : Nat) : List Byte := (b.drop lo).take (hi - lo)

/-- `zeros(n)` (R13). -/
def zeros (n : Nat) : List Byte := List.replicate n 0

/-- `B with [o] := v` (R13). -/
def putByte (b : List Byte) (o : Nat) (v : Byte) : List Byte := b.set o v

/-- `B with [o+i] := v[i]` for every `i` (R13). -/
def putBytes (b : List Byte) (o : Nat) : List Byte → List Byte
  | [] => b
  | v :: vs => putBytes (putByte b o v) (o + 1) vs

/-- `le16(B, o) = B[o] + 256 * B[o+1]` (R14). -/
def le16 (b : List Byte) (o : Nat) : Half :=
  (byteAt b o).setWidth 16 + 256 * (byteAt b (o + 1)).setWidth 16

/-- `put16le(B, o, v)` (R14): the low byte at `o`, the high byte at `o + 1`. -/
def put16le (b : List Byte) (o : Nat) (v : Half) : List Byte :=
  putByte (putByte b o (v.setWidth 8)) (o + 1) ((v >>> 8).setWidth 8)

/-- `zero16(B, o)` (R14). -/
def zero16 (b : List Byte) (o : Nat) : List Byte := putByte (putByte b o 0) (o + 1) 0

/-- The first `n` bytes of a sequence as a value of `Bytes n`. -/
def toBytes (n : Nat) (b : List Byte) : Bytes n := Vector.ofFn fun i => byteAt b i.val

/-- `xor(A, B)`, bytewise (R14). -/
def xorBytes {n : Nat} (a b : Bytes n) : Bytes n := Vector.zipWith (· ^^^ ·) a b

/-! ### Buffers -/

/-- The bytes of a buffer, lowest address first (R29). -/
def Memory.bytes (m : Memory) : List Byte := m.map Prod.snd

/-- The buffer that holds a byte sequence from address 0. -/
def Memory.ofBytes (b : List Byte) : Memory := b.zipIdx.map Prod.swap

/-- `len(buf)` (R30). -/
def Memory.len (m : Memory) : Nat := m.length

/-- The byte at an address, none past the length (R15). -/
def Memory.read (m : Memory) (a : Nat) : Option Byte := m.lookup a

/-- The canonical form of a buffer: its addresses are 0, 1, 2, ... in this order, none missing and none twice. -/
def Memory.wf (m : Memory) : Bool := m.map Prod.fst == List.range m.length

/-! ### Registers by number (R15, R20) -/

/-- The six registers. -/
inductive Reg where
  | key
  | iv
  | sid
  | seq
  | ident
  | status
  deriving DecidableEq, Repr

/-- The number `i` of `x[i]` (R20). -/
def Reg.number : Reg → Nat
  | .key => 0
  | .iv => 1
  | .sid => 2
  | .seq => 3
  | .ident => 4
  | .status => 5

/-- The type of a register's contents (R20). -/
abbrev Reg.Contents : Reg → Type
  | .key => Bytes 16
  | .iv => Bytes 16
  | .sid => Bytes 4
  | .seq => Half
  | .ident => Bytes 6
  | .status => Byte

/-- The host's read of a register, free at any time between operations (R21). -/
def readReg (s : State) : (r : Reg) → r.Contents
  | .key => s.key
  | .iv => s.iv
  | .sid => s.sid
  | .seq => s.seq
  | .ident => s.ident
  | .status => s.status

/-! ### Ends of an operation -/

/-- The operation ends with its result ports set; registers and buffers as `s` has them. -/
def finish (s : State) (r : Result) : State := { s with out := some r }

/-- The operation ends with `OB` set to exactly this sequence (R30), which is a data reply exactly if the verdict is
`V_DATA` (R274; log 15). -/
def finishOb (s : State) (b : List Byte) (r : Result) : State :=
  { s with ob := Memory.ofBytes b, out := some r, dataReply := decide (r.verdict = some .data) }

/-- `raise Refuse(code)` (R15, R300): no register, no flag and neither buffer changes, no event is emitted, and the
other result ports are not meaningful. -/
def refuse (s : State) (code : ResCode) : State := finish s { res := code }

/-- The host fills `IB` (R30); a buffer holds at most `MAX_DGRAM` bytes. -/
def hostFill (b : List Byte) (s : State) : Outcome :=
  if b.length ≤ s.cfg.maxDgram then .next { s with ib := Memory.ofBytes b } else .refused .inputTooLong

/-- The host's reset request (R35): every register, flag and buffer at its reset value under the machine's
configuration, no result. What is the host's (the operand ports, its pending actions, its notification) stays. -/
def hostReset (s : State) : State :=
  { State.resetWith s.cfg with ports := s.ports, queue := s.queue, note := s.note }

/-! ### Numeric values of the codes (R301, R303, R304) -/

/-- The value on port `res` (R301). -/
def ResCode.code : ResCode → Byte
  | .ok => 0x00#8
  | .eOp => 0x01#8
  | .eState => 0x02#8
  | .eAlign => 0x03#8
  | .eLen => 0x04#8
  | .eRange => 0x05#8

/-- The value on port `verdict` (R303). -/
def Verdict.code : Verdict → Byte
  | .ignored => 0x00#8
  | .ready => 0x01#8
  | .data => 0x02#8
  | .unknown => 0x03#8
  | .hello => 0x04#8

/-- The value on port `why` (R304). -/
def Why.code : Why → Byte
  | .noReason => 0x00#8
  | .short => 0x01#8
  | .align => 0x02#8
  | .hsLen => 0x03#8
  | .devErr => 0x04#8

end Sys2Proof.Machine
end

