-- ==== Sys2Proof/Machine/Flags.lean ====
section
/-! DEFINITION. The flags: `STATUS.OPENED` and `STATUS.AUTH` (spec/10_state.md R20, R25, R28). There is no other flag
and no operation computes a carry, overflow, zero or sign flag (R28). -/

namespace Sys2Proof.Machine

/-- `STATUS.OPENED`, bit 0. -/
def State.opened (s : State) : Bool := s.status.getLsbD 0

/-- `STATUS.AUTH`, bit 1. -/
def State.auth (s : State) : Bool := s.status.getLsbD 1

/-- `STATUS` after OPEN: `OPENED = 1`, `AUTH = 0` (R204). -/
def statusOpened : Byte := 0x01#8

/-- `STATUS.AUTH <- 1` (R221): bit 1 set, every other bit as it was. -/
def setAuth (status : Byte) : Byte := status ||| 0x02#8

/-- Bits 7:2 of `STATUS` are zero (R20). -/
def statusReservedZero (status : Byte) : Bool := status &&& 0xfc#8 == 0

end Sys2Proof.Machine
end

