-- ==== Sys2Proof/Machine/Operands.lean ====
section
/-! DEFINITION. The ways an operand or an offset is formed (spec/46_operation_classes.md R286): operand ports, fields
at configuration constants (spec/30_encoding.md R90 to R97), the hello map, the mirrored identity, and the payloads
the host builds (spec/45_payload_templates.md R261, R264). -/

namespace Sys2Proof.Machine

/-- The length of a command or response header, 0x38 (R7). -/
def hdrLen : Nat := 56

/-- The length of a discovery packet (R7). -/
def discLen : Nat := 48

/-- The block length of the cipher (R7). -/
def blkLen : Nat := 16

/-- The multiple-of-16 rule (R56). -/
abbrev Aligned (b : List Byte) : Prop := b.length % blkLen = 0

/-- The input as a byte sequence. -/
def State.input (s : State) : List Byte := s.ib.bytes

/-- The output as a byte sequence. -/
def State.output (s : State) : List Byte := s.ob.bytes

/-- The device-reported error code of a response (R53, R96): two bytes little-endian, or one byte zero-extended. -/
def errorCode (c : Cfg) (dgram : List Byte) : Half :=
  if c.rerrLen = 2 then le16 dgram c.offRerr else (byteAt dgram c.offRerr).setWidth 16

/-- The command byte of a response (R97). -/
def commandByte (c : Cfg) (dgram : List Byte) : Byte := byteAt dgram c.offRcmd

/-- The ciphertext of a response: everything after the header (R61, R110). -/
def ciphertext (dgram : List Byte) : List Byte := dgram.drop hdrLen

/-- The session id in a handshake payload: 4 bytes from offset 0 (R87). -/
def handshakeSid (pt : List Byte) : Bytes 4 := toBytes 4 (slice pt 0 4)

/-- The new key in a handshake payload: 16 bytes from `HS_KEY_OFF` (R87, spec/90_conflicts.md C2). -/
def handshakeKey (c : Cfg) (pt : List Byte) : Bytes 16 := toBytes 16 (slice pt c.hsKeyOff (c.hsKeyOff + 16))

/-- The shortest handshake plaintext that holds both fields (R226). -/
def handshakeNeed (c : Cfg) : Nat := max 4 (c.hsKeyOff + 16)

/-- The length a hello response must reach (R245). -/
def helloNeed (c : Cfg) : Nat :=
  (c.helloIdentMap.toList.map (· + 1)).foldr max (c.helloOffDevtype + 2)

/-- The identity read through the hello map (R245). -/
def helloIdent (c : Cfg) (dgram : List Byte) : Bytes 6 := c.helloIdentMap.map (byteAt dgram)

/-- The `PAY16` template: the code and 15 zero bytes (R261). -/
def pay16 (code : Byte) : List Byte := code :: zeros 15

/-- The `PAYCODE` payload: the prefix, then the learned code with whatever padding the host adds (R264). -/
def paycode (c : Cfg) (code : List Byte) : List Byte :=
  0x02#8 :: zeros (c.sendcodePrefixLen - 1) ++ code

/-- The outer command byte of dispatcher commands (R102). -/
def outerCommand : Byte := 0x6a#8

/-- The host puts FRAME's number and its `cmd` operand on the ports (R80, R113). -/
def driveFrame (cmd : Byte) (s : State) : State :=
  { s with ports := { s.ports with op := 0x21#8, cmd := cmd } }

/-- The host puts CSUMVFY's number and its `off` operand on the ports (R80, R113). -/
def driveCsumvfy (off : Nat) (s : State) : State :=
  { s with ports := { s.ports with op := 0x02#8, off := off } }

end Sys2Proof.Machine
end

