-- ==== Sys2Proof/Machine/Aes.lean ====
section
/-! DEFINITION. The AES-128 block functions (spec/42_aes_block.md): arithmetic in GF(2^8), the tables, key expansion,
the round transformations, the cipher and its inverse. The functions read and write no register (R163). A state is a
`Bytes 16` with flat index `4*c + r` for row `r`, column `c` (R141). -/

namespace Sys2Proof.Machine

/-! ### Field arithmetic (R142 to R144) -/

/-- `xtime` (R143). -/
def xtime (a : Byte) : Byte := (a <<< 1) ^^^ (if a.getLsbD 7 then 0x1B else 0x00)

/-- `xtime` applied `i` times (R143). -/
def xtimes : Nat → Byte → Byte
  | 0, a => a
  | i + 1, a => xtime (xtimes i a)

/-- `mul(a, b)`: the XOR over the set bits `i` of `b` of `xtime^i(a)` (R143). -/
def mul (a b : Byte) : Byte :=
  (List.range 8).foldl (fun acc i => if b.getLsbD i then acc ^^^ xtimes i a else acc) 0x00

/-- `a` to the power `2^n - 1`, as a product of squarings. -/
def powOnes : Nat → Byte → Byte
  | 0, _ => 0x01
  | n + 1, a => mul (mul (powOnes n a) (powOnes n a)) a

/-- The multiplicative inverse, `inv(0) = 0` (R144), computed as `a^254`, the square of `a^127` (DEDUCED, log 21). -/
def inv (a : Byte) : Byte := mul (powOnes 7 a) (powOnes 7 a)

/-- `affine(b)` (R145). -/
def affine (b : Byte) : Byte :=
  BitVec.ofBoolListLE ((List.range 8).map fun i =>
    b.getLsbD i ^^ b.getLsbD ((i + 4) % 8) ^^ b.getLsbD ((i + 5) % 8) ^^ b.getLsbD ((i + 6) % 8) ^^
      b.getLsbD ((i + 7) % 8) ^^ (0x63 : Byte).getLsbD i)

/-! ### Tables (R145 to R147) -/

/-- The rows of `SBOX`: row = high nibble, column = low nibble (R145). -/
def sboxRows : List (List Byte) := [
  [0x63, 0x7c, 0x77, 0x7b, 0xf2, 0x6b, 0x6f, 0xc5, 0x30, 0x01, 0x67, 0x2b, 0xfe, 0xd7, 0xab, 0x76],
  [0xca, 0x82, 0xc9, 0x7d, 0xfa, 0x59, 0x47, 0xf0, 0xad, 0xd4, 0xa2, 0xaf, 0x9c, 0xa4, 0x72, 0xc0],
  [0xb7, 0xfd, 0x93, 0x26, 0x36, 0x3f, 0xf7, 0xcc, 0x34, 0xa5, 0xe5, 0xf1, 0x71, 0xd8, 0x31, 0x15],
  [0x04, 0xc7, 0x23, 0xc3, 0x18, 0x96, 0x05, 0x9a, 0x07, 0x12, 0x80, 0xe2, 0xeb, 0x27, 0xb2, 0x75],
  [0x09, 0x83, 0x2c, 0x1a, 0x1b, 0x6e, 0x5a, 0xa0, 0x52, 0x3b, 0xd6, 0xb3, 0x29, 0xe3, 0x2f, 0x84],
  [0x53, 0xd1, 0x00, 0xed, 0x20, 0xfc, 0xb1, 0x5b, 0x6a, 0xcb, 0xbe, 0x39, 0x4a, 0x4c, 0x58, 0xcf],
  [0xd0, 0xef, 0xaa, 0xfb, 0x43, 0x4d, 0x33, 0x85, 0x45, 0xf9, 0x02, 0x7f, 0x50, 0x3c, 0x9f, 0xa8],
  [0x51, 0xa3, 0x40, 0x8f, 0x92, 0x9d, 0x38, 0xf5, 0xbc, 0xb6, 0xda, 0x21, 0x10, 0xff, 0xf3, 0xd2],
  [0xcd, 0x0c, 0x13, 0xec, 0x5f, 0x97, 0x44, 0x17, 0xc4, 0xa7, 0x7e, 0x3d, 0x64, 0x5d, 0x19, 0x73],
  [0x60, 0x81, 0x4f, 0xdc, 0x22, 0x2a, 0x90, 0x88, 0x46, 0xee, 0xb8, 0x14, 0xde, 0x5e, 0x0b, 0xdb],
  [0xe0, 0x32, 0x3a, 0x0a, 0x49, 0x06, 0x24, 0x5c, 0xc2, 0xd3, 0xac, 0x62, 0x91, 0x95, 0xe4, 0x79],
  [0xe7, 0xc8, 0x37, 0x6d, 0x8d, 0xd5, 0x4e, 0xa9, 0x6c, 0x56, 0xf4, 0xea, 0x65, 0x7a, 0xae, 0x08],
  [0xba, 0x78, 0x25, 0x2e, 0x1c, 0xa6, 0xb4, 0xc6, 0xe8, 0xdd, 0x74, 0x1f, 0x4b, 0xbd, 0x8b, 0x8a],
  [0x70, 0x3e, 0xb5, 0x66, 0x48, 0x03, 0xf6, 0x0e, 0x61, 0x35, 0x57, 0xb9, 0x86, 0xc1, 0x1d, 0x9e],
  [0xe1, 0xf8, 0x98, 0x11, 0x69, 0xd9, 0x8e, 0x94, 0x9b, 0x1e, 0x87, 0xe9, 0xce, 0x55, 0x28, 0xdf],
  [0x8c, 0xa1, 0x89, 0x0d, 0xbf, 0xe6, 0x42, 0x68, 0x41, 0x99, 0x2d, 0x0f, 0xb0, 0x54, 0xbb, 0x16]]

/-- The rows of `INVSBOX`, by the same convention (R146). -/
def invSboxRows : List (List Byte) := [
  [0x52, 0x09, 0x6a, 0xd5, 0x30, 0x36, 0xa5, 0x38, 0xbf, 0x40, 0xa3, 0x9e, 0x81, 0xf3, 0xd7, 0xfb],
  [0x7c, 0xe3, 0x39, 0x82, 0x9b, 0x2f, 0xff, 0x87, 0x34, 0x8e, 0x43, 0x44, 0xc4, 0xde, 0xe9, 0xcb],
  [0x54, 0x7b, 0x94, 0x32, 0xa6, 0xc2, 0x23, 0x3d, 0xee, 0x4c, 0x95, 0x0b, 0x42, 0xfa, 0xc3, 0x4e],
  [0x08, 0x2e, 0xa1, 0x66, 0x28, 0xd9, 0x24, 0xb2, 0x76, 0x5b, 0xa2, 0x49, 0x6d, 0x8b, 0xd1, 0x25],
  [0x72, 0xf8, 0xf6, 0x64, 0x86, 0x68, 0x98, 0x16, 0xd4, 0xa4, 0x5c, 0xcc, 0x5d, 0x65, 0xb6, 0x92],
  [0x6c, 0x70, 0x48, 0x50, 0xfd, 0xed, 0xb9, 0xda, 0x5e, 0x15, 0x46, 0x57, 0xa7, 0x8d, 0x9d, 0x84],
  [0x90, 0xd8, 0xab, 0x00, 0x8c, 0xbc, 0xd3, 0x0a, 0xf7, 0xe4, 0x58, 0x05, 0xb8, 0xb3, 0x45, 0x06],
  [0xd0, 0x2c, 0x1e, 0x8f, 0xca, 0x3f, 0x0f, 0x02, 0xc1, 0xaf, 0xbd, 0x03, 0x01, 0x13, 0x8a, 0x6b],
  [0x3a, 0x91, 0x11, 0x41, 0x4f, 0x67, 0xdc, 0xea, 0x97, 0xf2, 0xcf, 0xce, 0xf0, 0xb4, 0xe6, 0x73],
  [0x96, 0xac, 0x74, 0x22, 0xe7, 0xad, 0x35, 0x85, 0xe2, 0xf9, 0x37, 0xe8, 0x1c, 0x75, 0xdf, 0x6e],
  [0x47, 0xf1, 0x1a, 0x71, 0x1d, 0x29, 0xc5, 0x89, 0x6f, 0xb7, 0x62, 0x0e, 0xaa, 0x18, 0xbe, 0x1b],
  [0xfc, 0x56, 0x3e, 0x4b, 0xc6, 0xd2, 0x79, 0x20, 0x9a, 0xdb, 0xc0, 0xfe, 0x78, 0xcd, 0x5a, 0xf4],
  [0x1f, 0xdd, 0xa8, 0x33, 0x88, 0x07, 0xc7, 0x31, 0xb1, 0x12, 0x10, 0x59, 0x27, 0x80, 0xec, 0x5f],
  [0x60, 0x51, 0x7f, 0xa9, 0x19, 0xb5, 0x4a, 0x0d, 0x2d, 0xe5, 0x7a, 0x9f, 0x93, 0xc9, 0x9c, 0xef],
  [0xa0, 0xe0, 0x3b, 0x4d, 0xae, 0x2a, 0xf5, 0xb0, 0xc8, 0xeb, 0xbb, 0x3c, 0x83, 0x53, 0x99, 0x61],
  [0x17, 0x2b, 0x04, 0x7e, 0xba, 0x77, 0xd6, 0x26, 0xe1, 0x69, 0x14, 0x63, 0x55, 0x21, 0x0c, 0x7d]]

/-- The entry of a table at byte `a`. -/
def tableAt (rows : List (List Byte)) (a : Byte) : Byte := byteAt (rows.getD (a.toNat / 16) []) (a.toNat % 16)

/-- `SBOX[a]` (R145). -/
def sbox (a : Byte) : Byte := tableAt sboxRows a

/-- `INVSBOX[a]` (R146). -/
def invSbox (a : Byte) : Byte := tableAt invSboxRows a

/-- `RCON[j]` for `j = 1, 2, ...`; `RCON[0]` is not used (R147). -/
def rcon (j : Nat) : Byte := xtimes (j - 1) 0x01

/-! ### Key expansion (R150) -/

/-- RotWord: rotate left by one byte. -/
def rotWord (t : Bytes 4) : Bytes 4 := #v[t[1], t[2], t[3], t[0]]

/-- SubWord. -/
def subWord (t : Bytes 4) : Bytes 4 := t.map sbox

/-- The round constant into the first byte only. -/
def addRcon (t : Bytes 4) (j : Nat) : Bytes 4 := #v[t[0] ^^^ rcon j, t[1], t[2], t[3]]

/-- What `w[i-1]` becomes before it is added to `w[i-4]`. -/
def scheduleCore (i : Nat) (t : Bytes 4) : Bytes 4 :=
  if i % 4 = 0 then addRcon (subWord (rotWord t)) (i / 4) else t

/-- The words `w[0] .. w[n+3]`, the newest first. -/
def expandWords (key : Bytes 16) : Nat → List (Bytes 4)
  | 0 => [#v[key[12], key[13], key[14], key[15]], #v[key[8], key[9], key[10], key[11]],
          #v[key[4], key[5], key[6], key[7]], #v[key[0], key[1], key[2], key[3]]]
  | n + 1 =>
    let ws := expandWords key n
    xorBytes (ws.getD 3 (zeroBytes 4)) (scheduleCore (n + 4) (ws.getD 0 (zeroBytes 4))) :: ws

/-- The word `w[i]`, `i = 0 .. 43`. -/
def keyWord (key : Bytes 16) (i : Nat) : Bytes 4 := (expandWords key 40).getD (43 - i) (zeroBytes 4)

/-- `key_expand`: the eleven round keys, `RK[r] = w[4r] ++ w[4r+1] ++ w[4r+2] ++ w[4r+3]` (R150). -/
def keyExpand (key : Bytes 16) : Vector (Bytes 16) 11 :=
  Vector.ofFn fun r =>
    toBytes 16 ((keyWord key (4 * r.val)).toList ++ (keyWord key (4 * r.val + 1)).toList ++
      (keyWord key (4 * r.val + 2)).toList ++ (keyWord key (4 * r.val + 3)).toList)

/-! ### Round transformations (R152 to R156) -/

/-- `add_round_key` (R152). -/
def addRoundKey (s k : Bytes 16) : Bytes 16 := xorBytes s k

/-- `sub_bytes` (R153). -/
def subBytes (s : Bytes 16) : Bytes 16 := s.map sbox

/-- `inv_sub_bytes` (R153). -/
def invSubBytes (s : Bytes 16) : Bytes 16 := s.map invSbox

/-- `shift_rows`: row `r` rotates left by `r` (R154). -/
def shiftRows (s : Bytes 16) : Bytes 16 :=
  Vector.ofFn fun i => s[4 * ((i.val / 4 + i.val % 4) % 4) + i.val % 4]

/-- `inv_shift_rows`: row `r` rotates right by `r` (R154). -/
def invShiftRows (s : Bytes 16) : Bytes 16 :=
  Vector.ofFn fun i => s[4 * ((i.val / 4 + 4 - i.val % 4) % 4) + i.val % 4]

/-- One column of `mix_columns` (R155). -/
def mixColumn (a : Bytes 4) : Bytes 4 := #v[
  mul 2 a[0] ^^^ mul 3 a[1] ^^^ a[2] ^^^ a[3],
  a[0] ^^^ mul 2 a[1] ^^^ mul 3 a[2] ^^^ a[3],
  a[0] ^^^ a[1] ^^^ mul 2 a[2] ^^^ mul 3 a[3],
  mul 3 a[0] ^^^ a[1] ^^^ a[2] ^^^ mul 2 a[3]]

/-- One column of `inv_mix_columns` (R156). -/
def invMixColumn (a : Bytes 4) : Bytes 4 := #v[
  mul 14 a[0] ^^^ mul 11 a[1] ^^^ mul 13 a[2] ^^^ mul 9 a[3],
  mul 9 a[0] ^^^ mul 14 a[1] ^^^ mul 11 a[2] ^^^ mul 13 a[3],
  mul 13 a[0] ^^^ mul 9 a[1] ^^^ mul 14 a[2] ^^^ mul 11 a[3],
  mul 11 a[0] ^^^ mul 13 a[1] ^^^ mul 9 a[2] ^^^ mul 14 a[3]]

/-- The column `s[4c .. 4c+4)` of a state. -/
def column (s : Bytes 16) (c : Fin 4) : Bytes 4 :=
  #v[s[4 * c.val], s[4 * c.val + 1], s[4 * c.val + 2], s[4 * c.val + 3]]

/-- A function of columns applied to each column of a state. -/
def onColumns (f : Bytes 4 → Bytes 4) (s : Bytes 16) : Bytes 16 :=
  Vector.ofFn fun i => (f (column s ⟨i.val / 4, by omega⟩))[i.val % 4]

/-- `mix_columns` (R155). -/
def mixColumns (s : Bytes 16) : Bytes 16 := onColumns mixColumn s

/-- `inv_mix_columns` (R156). -/
def invMixColumns (s : Bytes 16) : Bytes 16 := onColumns invMixColumn s

/-! ### The block functions (R160, R161) -/

/-- A round of the cipher, 1 to 9 (R160). -/
def encRound (rk : Vector (Bytes 16) 11) (s : Bytes 16) (r : Fin 11) : Bytes 16 :=
  addRoundKey (mixColumns (shiftRows (subBytes s))) (rk.get r)

/-- A round of the inverse cipher, 9 down to 1 (R161). -/
def decRound (rk : Vector (Bytes 16) 11) (s : Bytes 16) (r : Fin 11) : Bytes 16 :=
  invMixColumns (addRoundKey (invSubBytes (invShiftRows s)) (rk.get r))

/-- The rounds with `mix_columns`, in order. -/
def middleRounds : List (Fin 11) := [1, 2, 3, 4, 5, 6, 7, 8, 9]

/-- `aes_enc_block(RK, P)` (R160). -/
def aesEncBlock (rk : Vector (Bytes 16) 11) (p : Bytes 16) : Bytes 16 :=
  addRoundKey (shiftRows (subBytes (middleRounds.foldl (encRound rk) (addRoundKey p (rk.get 0))))) (rk.get 10)

/-- `aes_dec_block(RK, C)` (R161). -/
def aesDecBlock (rk : Vector (Bytes 16) 11) (c : Bytes 16) : Bytes 16 :=
  addRoundKey (invSubBytes (invShiftRows
    (middleRounds.reverse.foldl (decRound rk) (addRoundKey c (rk.get 10))))) (rk.get 0)

end Sys2Proof.Machine
end

