-- ==== Sys2Proof/Machine/Cbc.lean ====
section
/-! DEFINITION. Cipher block chaining, CBCENC and CBCDEC (spec/43_cbc.md). The chaining value starts at `IV` in every
operation and is not written back (R23, R181). -/

namespace Sys2Proof.Machine

/-- The first `m` blocks of a sequence (R181). -/
def blocksOf : Nat → List Byte → List (Bytes 16)
  | 0, _ => []
  | m + 1, b => toBytes 16 b :: blocksOf m (b.drop blkLen)

/-- Blocks laid end to end. -/
def joinBlocks (bs : List (Bytes 16)) : List Byte := bs.flatMap Vector.toList

/-- The loop of `cbc_enc` (R181); the second argument is the chaining value `CH`. -/
def cbcEncBlocks (rk : Vector (Bytes 16) 11) : Bytes 16 → List (Bytes 16) → List (Bytes 16)
  | _, [] => []
  | ch, p :: ps =>
    let c := aesEncBlock rk (xorBytes p ch)
    c :: cbcEncBlocks rk c ps

/-- The loop of `cbc_dec` (R181). -/
def cbcDecBlocks (rk : Vector (Bytes 16) 11) : Bytes 16 → List (Bytes 16) → List (Bytes 16)
  | _, [] => []
  | ch, c :: cs => xorBytes (aesDecBlock rk c) ch :: cbcDecBlocks rk c cs

/-- `cbc_enc(K, V, P)` (R181). -/
def cbcEnc (k v : Bytes 16) (p : List Byte) : List Byte :=
  joinBlocks (cbcEncBlocks (keyExpand k) v (blocksOf (p.length / blkLen) p))

/-- `cbc_dec(K, V, C)` (R181). -/
def cbcDec (k v : Bytes 16) (c : List Byte) : List Byte :=
  joinBlocks (cbcDecBlocks (keyExpand k) v (blocksOf (c.length / blkLen) c))

/-- CBCENC (R184). -/
def cbcencOp (s : State) : State :=
  if ¬ Aligned s.input then refuse s .eAlign
  else finishOb s (cbcEnc s.key s.iv s.input) { res := .ok }

/-- CBCDEC (R187). -/
def cbcdecOp (s : State) : State :=
  if ¬ Aligned s.input then refuse s .eAlign
  else finishOb s (cbcDec s.key s.iv s.input) { res := .ok }

/-- Row CBCENC (R184). -/
def execCbcenc (s : State) : Outcome := .next (cbcencOp s)

/-- Row CBCDEC (R187). -/
def execCbcdec (s : State) : Outcome := .next (cbcdecOp s)

end Sys2Proof.Machine
end

