-- ==== Sys2Proof/Machine/Checksum.lean ====
section
/-! DEFINITION. The checksum generator: `csum`, CSUM, CSUMVFY (spec/41_checksum.md). It is a sum modulo 65536, not a
CRC (spec/90_conflicts.md C1). -/

namespace Sys2Proof.Machine

/-- The seed (R7, R120). -/
def csumSeed : Half := 0xBEAF#16

/-- `csum(B)` in the step form of R121: a 16-bit accumulator over ascending offsets, the carry discarded. -/
def csum (b : List Byte) : Half := b.foldl (fun acc x => acc + x.setWidth 16) csumSeed

/-- The checksum of a packet with its 2-byte checksum field zeroed during computation (R123). -/
def csumZeroed (b : List Byte) (o : Nat) : Half := csum (zero16 b o)

/-- A packet with that checksum stored in its field, little-endian (R52, R95). -/
def sealChecksum (b : List Byte) (o : Nat) : List Byte := put16le b o (csumZeroed b o)

/-- CSUM (R124). -/
def csumOp (s : State) : State := finish s { res := .ok, val16 := some (csum s.input) }

/-- CSUMVFY (R127). -/
def csumvfyOp (s : State) : State :=
  let b := s.input
  let off := s.ports.off
  if off + 2 > b.length then refuse s .eRange
  else finish s { res := .ok, val16 := some (csumZeroed b off),
                  okFlag := some (csumZeroed b off == le16 b off) }

/-- Row CSUM (R124). -/
def execCsum (s : State) : Outcome := .next (csumOp s)

/-- Row CSUMVFY (R127). -/
def execCsumvfy (s : State) : Outcome := .next (csumvfyOp s)

end Sys2Proof.Machine
end

