-- ==== Sys2Proof/Machine/Framer.lean ====
section
/-! DEFINITION. The packet framer: FRAME, the outer command byte, DISC (spec/44_framer_parser.md R210 to R214, R240;
spec/30_encoding.md R102). -/

namespace Sys2Proof.Machine

/-- Steps 2 and 3 of R211: the header, with every field but the whole-packet checksum. -/
def frameHeader (c : Cfg) (cmd : Byte) (seq : Half) (ident : Bytes 6) (sid : Bytes 4) (payload : List Byte) :
    List Byte :=
  let h := c.hdrTemplate.toList
  let h := putByte h c.offCmd cmd
  let h := put16le h c.offSeq seq
  let h := putBytes h c.offIdent ident.toList.reverse
  let h := putBytes h c.offSid sid.toList
  put16le h c.offPaycs (csum payload)

/-- Steps 2 to 6 of R211: the whole packet; `seq` is the incremented counter. -/
def framePacket (c : Cfg) (cmd : Byte) (seq : Half) (ident : Bytes 6) (sid : Bytes 4) (key iv : Bytes 16)
    (payload : List Byte) : List Byte :=
  sealChecksum (frameHeader c cmd seq ident sid payload ++ cbcEnc key iv payload) c.offPktcs

/-- The packet that FRAME builds in state `s` (R211): step 1's counter, then the packet. -/
def packetOf (s : State) : List Byte :=
  framePacket s.cfg s.ports.cmd (s.seq + 1) s.ident s.sid s.key s.iv s.input

/-- FRAME: the checks in the order of R210, then the send path of R211. -/
def frameOp (s : State) : State :=
  if ¬ s.opened then refuse s .eState
  else if ¬ Aligned s.input then refuse s .eAlign
  else if hdrLen + s.input.length > s.cfg.maxDgram then refuse s .eLen
  else finishOb { s with seq := s.seq + 1 } (packetOf s) { res := .ok }

/-- Row FRAME (R211). -/
def execFrame (s : State) : Outcome := .next (frameOp s)

/-- Row CMD.OUT (R102): the send path under the fixed outer command byte (log 14). -/
def execCmdOut (s : State) : Outcome := .next (frameOp (driveFrame outerCommand s))

/-- DISC (R240). -/
def discOp (s : State) : State :=
  if s.input.length ≠ discLen then refuse s .eLen
  else finishOb s (sealChecksum s.input s.cfg.discOffCs) { res := .ok }

/-- Row DISC (R240). -/
def execDisc (s : State) : Outcome := .next (discOp s)

end Sys2Proof.Machine
end

