-- ==== Sys2Proof/Machine/Parser.lean ====
section
/-! DEFINITION. The header parser: PARSE, the four response command rows it dispatches on, HELLO
(spec/44_framer_parser.md R220 to R230, R245). The order of checks is R307's. -/

namespace Sys2Proof.Machine

/-- What the steps before the dispatch hand to an arm of PARSE (R221). -/
structure Received where
  rerr : Half
  rcmd : Byte
  pt : List Byte
  deriving DecidableEq, Repr

/-- The event of step 2, if any (R223). -/
def errorEvents (rerr : Half) : List Event := if rerr ≠ 0 then [.devErr rerr] else []

/-- A verdict `V_IGNORED` of PARSE: `OB` becomes empty, no register changes (R221). -/
def parseIgnored (s : State) (why : Why) (rerr : Half) (rcmd : Byte) (events : List Event) : State :=
  finishOb s [] { res := .ok, verdict := some .ignored, why := some why, rcmd := some rcmd, rerr := some rerr,
                  events := events }

/-- The other verdicts of PARSE: the plaintext in `OB`, the arm's event after the `DEVERR` already due (R221). -/
def parseDone (s : State) (rx : Received) (verdict : Verdict) (event : Event) : State :=
  finishOb s rx.pt { res := .ok, verdict := some verdict, why := some .noReason, rcmd := some rx.rcmd,
                     rerr := some rx.rerr, events := errorEvents rx.rerr ++ [event] }

/-- The 0xe9 arm (R226): `SID` and `KEY` are replaced and `AUTH` set, whether or not `AUTH` was set before. -/
def armHandshake (s : State) (rx : Received) : State :=
  if rx.pt.length < handshakeNeed s.cfg then
    parseIgnored s .hsLen rx.rerr rx.rcmd (errorEvents rx.rerr)
  else
    parseDone { s with sid := handshakeSid rx.pt, key := handshakeKey s.cfg rx.pt, status := setAuth s.status }
      rx .ready .ready

/-- The 0xee and 0xef arms (R227). -/
def armData (s : State) (rx : Received) : State := parseDone s rx .data .data

/-- The other arm (R228). -/
def armUnknown (s : State) (rx : Received) : State := parseDone s rx .unknown (.unknown rx.rcmd)

/-- Step 4's dispatch (R225). -/
def dispatchArm (s : State) (rx : Received) : State :=
  if rx.rcmd = 0xe9#8 then armHandshake s rx
  else if rx.rcmd = 0xee#8 ∨ rx.rcmd = 0xef#8 then armData s rx
  else armUnknown s rx

/-- The receive path (R220, R221) on the datagram in `IB` with command byte `rcmd`: the checks and steps before the
dispatch, then `arm` on what they yield. The key and the initialization vector are those before this PARSE (R224). -/
def receive (s : State) (rcmd : Byte) (arm : State → Received → State) : State :=
  let dgram := s.input
  let rerr := errorCode s.cfg dgram
  let ct := ciphertext dgram
  if ¬ s.opened then refuse s .eState
  else if dgram.length < hdrLen then parseIgnored s .short 0 0 []
  else if rerr ≠ 0 ∧ s.cfg.rxStopOnErr then parseIgnored s .devErr rerr rcmd (errorEvents rerr)
  else if ¬ Aligned ct then parseIgnored s .align rerr rcmd (errorEvents rerr)
  else arm s { rerr := rerr, rcmd := rcmd, pt := cbcDec s.key s.iv ct }

/-- Row PARSE (R221): the command byte is the datagram's (R97). -/
def execParse (s : State) : Outcome := .next (receive s (commandByte s.cfg s.input) dispatchArm)

/-- Row RSP.HS (R226): the datagram in `IB` received as a handshake reply (log 12). -/
def execRspHs (s : State) : Outcome := .next (receive s 0xe9#8 armHandshake)

/-- Row RSP.DATA_EE (R227): the datagram in `IB` received as a data reply 0xee (log 12). -/
def execRspDataEe (s : State) : Outcome := .next (receive s 0xee#8 armData)

/-- Row RSP.DATA_EF (R227): the datagram in `IB` received as a data reply 0xef (log 12). -/
def execRspDataEf (s : State) : Outcome := .next (receive s 0xef#8 armData)

/-- Row RSP.OTHER (R228): the datagram in `IB` received under a command byte PARSE does not know (log 12). -/
def execRspOther (rcmd : Byte) (s : State) : Outcome := .next (receive s rcmd armUnknown)

/-- HELLO (R245). -/
def helloOp (s : State) : State :=
  if s.input.length < helloNeed s.cfg then
    finish s { res := .ok, verdict := some .ignored, why := some .short }
  else
    finish s { res := .ok, verdict := some .hello, why := some .noReason,
               oident := some (helloIdent s.cfg s.input), val16 := some (le16 s.input s.cfg.helloOffDevtype) }

/-- Row HELLO (R245). -/
def execHello (s : State) : Outcome := .next (helloOp s)

end Sys2Proof.Machine
end

