-- ==== Sys2Proof/WellFormed.lean ====
section
/-! DEFINITION. Which instructions exist: the byte of a row that stands for a class of bytes lies in that class
(spec/30_encoding.md R106, R101, R104). -/

namespace Sys2Proof

/-- The nine operation numbers of R100. -/
def definedOps : List Byte := [0x01#8, 0x02#8, 0x10#8, 0x11#8, 0x20#8, 0x21#8, 0x22#8, 0x23#8, 0x24#8]

/-- The three response command bytes R101 lists. -/
def definedRspCmds : List Byte := [0xe9#8, 0xee#8, 0xef#8]

/-- The four reply parameter ids R104 lists. -/
def definedReplyParams : List Byte := [0x01#8, 0x04#8, 0x1a#8, 0x1b#8]

/-- An instruction is well formed when its byte, where it carries one, belongs to its class. -/
def Instr.wf : Instr → Bool
  | .opReserved op => !definedOps.contains op
  | .rspOther rcmd => !definedRspCmds.contains rcmd
  | .replyOther param => !definedReplyParams.contains param
  | _ => true

end Sys2Proof
end

