-- ==== Sys2Proof/Decode.lean ====
section
/-! DEFINITION. Decoding and encoding (spec/30_encoding.md R100 to R106, R113). A byte is decoded in its format. The
`op` byte decodes totally: a number outside the nine is the reserved row, which the block refuses with `E_OP`. -/

namespace Sys2Proof

/-- Decode of the `op` port (R100, R106). -/
def decodeOp (b : Byte) : Instr :=
  if b = 0x01#8 then .csum
  else if b = 0x02#8 then .csumvfy
  else if b = 0x10#8 then .cbcenc
  else if b = 0x11#8 then .cbcdec
  else if b = 0x20#8 then .openOp
  else if b = 0x21#8 then .frame
  else if b = 0x22#8 then .parse
  else if b = 0x23#8 then .disc
  else if b = 0x24#8 then .hello
  else .opReserved b

/-- Decode of a response command byte (R101). -/
def decodeRsp (b : Byte) : Instr :=
  if b = 0xe9#8 then .rspHs
  else if b = 0xee#8 then .rspDataEe
  else if b = 0xef#8 then .rspDataEf
  else .rspOther b

/-- Decode of a reply parameter id (R104). -/
def decodeReply (b : Byte) : Instr :=
  if b = 0x01#8 then .replyTemp
  else if b = 0x04#8 then .replyCode
  else if b = 0x1a#8 then .replySweep
  else if b = 0x1b#8 then .replyRfdata
  else .replyOther b

/-- Decode of byte 0 of a 16-byte command payload (R103); the other codes have no row (R108). -/
def decodePay16 (b : Byte) : Option Instr :=
  if b = 0x01#8 then some .payChecktemp
  else if b = 0x03#8 then some .payEnterlearn
  else if b = 0x04#8 then some .payCheckdata
  else if b = 0x19#8 then some .payRfsweep
  else if b = 0x1a#8 then some .payChecksweep
  else if b = 0x1b#8 then some .payFindrf
  else if b = 0x1e#8 then some .payCancel
  else none

/-- A byte read in its format; `none` where the table has no row for it. A pseudo-operation is written as the
`op` byte of its expansion, so its byte decodes to that operation (R112, R113). -/
def decodeIn : Format → Byte → Option Instr
  | .op, b => some (decodeOp b)
  | .rspcmd, b => some (decodeRsp b)
  | .cmdpkt, b => if b = 0x6a#8 then some .cmdOut else none
  | .pay16, b => decodePay16 b
  | .paycode, b => if b = 0x02#8 then some .paySendcode else none
  | .reply, b => some (decodeReply b)
  | .pseudo, b => some (decodeOp b)

/-- The format of each row. -/
def Instr.format : Instr → Format
  | .csum | .csumvfy | .cbcenc | .cbcdec | .openOp | .frame | .parse | .disc | .hello | .opReserved _ => .op
  | .rspHs | .rspDataEe | .rspDataEf | .rspOther _ => .rspcmd
  | .cmdOut => .cmdpkt
  | .payChecktemp | .payEnterlearn | .payCheckdata | .payCancel | .payRfsweep | .payChecksweep | .payFindrf => .pay16
  | .paySendcode => .paycode
  | .replyTemp | .replyCode | .replySweep | .replyRfdata | .replyOther _ => .reply
  | .sendChecktemp | .sendEnterlearn | .sendCheckdata | .sendCancel | .sendRfsweep | .sendChecksweep
  | .sendFindrf | .sendCode | .vfypkt | .vfydisc => .pseudo

/-- The byte of each row in its format. -/
def encode : Instr → Byte
  | .csum => 0x01#8
  | .csumvfy => 0x02#8
  | .cbcenc => 0x10#8
  | .cbcdec => 0x11#8
  | .openOp => 0x20#8
  | .frame => 0x21#8
  | .parse => 0x22#8
  | .disc => 0x23#8
  | .hello => 0x24#8
  | .opReserved op => op
  | .rspHs => 0xe9#8
  | .rspDataEe => 0xee#8
  | .rspDataEf => 0xef#8
  | .rspOther rcmd => rcmd
  | .cmdOut => 0x6a#8
  | .payChecktemp => 0x01#8
  | .paySendcode => 0x02#8
  | .payEnterlearn => 0x03#8
  | .payCheckdata => 0x04#8
  | .payRfsweep => 0x19#8
  | .payChecksweep => 0x1a#8
  | .payFindrf => 0x1b#8
  | .payCancel => 0x1e#8
  | .replyTemp => 0x01#8
  | .replyCode => 0x04#8
  | .replySweep => 0x1a#8
  | .replyRfdata => 0x1b#8
  | .replyOther param => param
  | .sendChecktemp | .sendEnterlearn | .sendCheckdata | .sendCancel | .sendRfsweep | .sendChecksweep
  | .sendFindrf | .sendCode => 0x21#8
  | .vfypkt | .vfydisc => 0x02#8

/-- The row that a row's own byte decodes to: the expansion's operation for a pseudo-operation (R113), the row
itself otherwise. -/
def Instr.core : Instr → Instr
  | .sendChecktemp | .sendEnterlearn | .sendCheckdata | .sendCancel | .sendRfsweep | .sendChecksweep
  | .sendFindrf | .sendCode => .frame
  | .vfypkt | .vfydisc => .csumvfy
  | i => i

/-- The instruction the block reads from its `op` port when the port's bits are `w` (R80: 8 bits; no operation has
more). -/
def decodeTableWord (_nbits w : Nat) : Option Instr :=
  if w < 256 then decodeIn .op (BitVec.ofNat 8 w) else none

end Sys2Proof
end

