-- ==== Sys2Proof/Machine/Payloads.lean ====
section
/-! DEFINITION. The payloads the host builds for the framer and decodes after the parser
(spec/45_payload_templates.md). None of these rows is an operation of the block and none changes a register: the
PAY rows fill `IB` (R30, R261, R264; log 13), the REPLY rows read `OB` and yield a notification (R274 to R279; log 15).
DESIGN CHOICE (log 24): a REPLY row performed by its name decodes whatever `OB` holds, without R274's dispatch: it looks
neither at the first byte nor at whether `OB` came from a PARSE with verdict `V_DATA`. The dispatch itself is `replyRow`. -/

namespace Sys2Proof.Machine

/-- Row PAY.CHECKTEMP (R263). -/
def execPayChecktemp (s : State) : Outcome := hostFill (pay16 0x01#8) s

/-- Row PAY.SENDCODE (R264): the prefix goes before the learned code, with any padding, that stands in `IB`. -/
def execPaySendcode (s : State) : Outcome := hostFill (paycode s.cfg s.input) s

/-- Row PAY.ENTERLEARN (R265). -/
def execPayEnterlearn (s : State) : Outcome := hostFill (pay16 0x03#8) s

/-- Row PAY.CHECKDATA (R266). -/
def execPayCheckdata (s : State) : Outcome := hostFill (pay16 0x04#8) s

/-- Row PAY.CANCEL (R267). -/
def execPayCancel (s : State) : Outcome := hostFill (pay16 0x1e#8) s

/-- Row PAY.RFSWEEP (R268). -/
def execPayRfsweep (s : State) : Outcome := hostFill (pay16 0x19#8) s

/-- Row PAY.CHECKSWEEP (R269). -/
def execPayChecksweep (s : State) : Outcome := hostFill (pay16 0x1a#8) s

/-- Row PAY.FINDRF (R270). -/
def execPayFindrf (s : State) : Outcome := hostFill (pay16 0x1b#8) s

/-! ### Data replies -/

/-- The host's notification is set; a payload too short for its decoding yields none (R274). -/
def setNote (s : State) (n : Option Notification) : State := { s with note := n }

/-- `(byte[4] * 10 + byte[5]) / 10.0` in tenths of a degree (R275). -/
def temperatureOf (pt : List Byte) : Option Notification :=
  if pt.length < 6 then none
  else some (.temperature ((byteAt pt 4).toNat * 10 + (byteAt pt 5).toNat))

/-- The bytes after the 4-byte header (R276). -/
def rawCodeOf (pt : List Byte) : Option Notification :=
  if pt.length < 4 then none else some (.rawData (pt.drop 4))

/-- The single byte, at an offset the spec does not give (R277, log 9); value 1 means success. -/
def sweepResultOf (pt : List Byte) : Option Notification :=
  if pt.length ≤ Config.sweepOffset then none
  else some (.sweepResult (byteAt pt Config.sweepOffset == 0x01#8))

/-- What the free values of R278 give; none for an empty payload or one shorter than the decoding reads (R274; how many
bytes that is the spec leaves open: FREE VALUE, log 10). -/
def rfDataOf (pt : List Byte) : Option Notification :=
  if pt = [] ∨ pt.length < Config.rfDataNeed then none else some (.rfData (Config.rfDataBytes pt))

/-- Row REPLY.TEMP (R275); by its name on any `OB` (DESIGN CHOICE, log 24). -/
def execReplyTemp (s : State) : Outcome := .next (setNote s (temperatureOf s.output))

/-- Row REPLY.CODE (R276); by its name on any `OB` (DESIGN CHOICE, log 24). -/
def execReplyCode (s : State) : Outcome := .next (setNote s (rawCodeOf s.output))

/-- Row REPLY.SWEEP (R277); by its name on any `OB` (DESIGN CHOICE, log 24). -/
def execReplySweep (s : State) : Outcome := .next (setNote s (sweepResultOf s.output))

/-- Row REPLY.RFDATA (R278): which bytes it carries and how many it needs the spec does not give (FREE VALUES, log 10); by
its name on any `OB` (DESIGN CHOICE, log 24). -/
def execReplyRfdata (s : State) : Outcome := .next (setNote s (rfDataOf s.output))

/-- Row REPLY.OTHER (R279): dropped, no notification; by its name on any `OB` (DESIGN CHOICE, log 24). -/
def execReplyOther (_param : Byte) (s : State) : Outcome := .next (setNote s none)

/-- The row the host decodes `OB` by (R274): that of its first byte, as long as `OB` is the plaintext of a PARSE with
verdict `V_DATA`, whatever operation that left `OB` alone came after it (R125); none for an empty payload. -/
def replyRow (s : State) : Option Instr :=
  match s.output with
  | [] => none
  | param :: _ => if s.dataReply then some (decodeReply param) else none

end Sys2Proof.Machine
end

