-- ==== Sys2Proof/Machine/Pseudo.lean ====
section
/-! DEFINITION. The pseudo-operations and their expansions (spec/30_encoding.md R113): the host fills `IB`, puts the
operands on the ports and issues FRAME or CSUMVFY (log 14). -/

namespace Sys2Proof.Machine

/-- `FRAME cmd=0x6a` on the payload in `IB` (R113, R260). -/
def sendInput (s : State) : State := frameOp (driveFrame outerCommand s)

/-- `FRAME cmd=0x6a ib=payload` (R113): the host fills `IB`, then issues FRAME. -/
def send (payload : List Byte) (s : State) : Outcome :=
  match hostFill payload s with
  | .next t => .next (sendInput t)
  | .fault f => .fault f
  | .refused r => .refused r

/-- Row SEND.CHECKTEMP. -/
def execSendChecktemp (s : State) : Outcome := send (pay16 0x01#8) s

/-- Row SEND.ENTERLEARN. -/
def execSendEnterlearn (s : State) : Outcome := send (pay16 0x03#8) s

/-- Row SEND.CHECKDATA. -/
def execSendCheckdata (s : State) : Outcome := send (pay16 0x04#8) s

/-- Row SEND.CANCEL. -/
def execSendCancel (s : State) : Outcome := send (pay16 0x1e#8) s

/-- Row SEND.RFSWEEP. -/
def execSendRfsweep (s : State) : Outcome := send (pay16 0x19#8) s

/-- Row SEND.CHECKSWEEP. -/
def execSendChecksweep (s : State) : Outcome := send (pay16 0x1a#8) s

/-- Row SEND.FINDRF. -/
def execSendFindrf (s : State) : Outcome := send (pay16 0x1b#8) s

/-- Row SEND.CODE: the payload `P` is the one the host built in `IB` (R264). -/
def execSendCode (s : State) : Outcome := .next (sendInput s)

/-- Row VFYPKT: `CSUMVFY off=OFF_PKTCS` on the command packet in `IB`. -/
def execVfypkt (s : State) : Outcome := .next (csumvfyOp (driveCsumvfy s.cfg.offPktcs s))

/-- Row VFYDISC: `CSUMVFY off=DISC_OFF_CS` on the discovery packet in `IB`. -/
def execVfydisc (s : State) : Outcome := .next (csumvfyOp (driveCsumvfy s.cfg.discOffCs s))

end Sys2Proof.Machine
end

