-- ==== Sys2Proof/Machine/Session.lean ====
section
/-! DEFINITION. OPEN (spec/44_framer_parser.md R204) and the reserved operation numbers (spec/30_encoding.md R106). -/

namespace Sys2Proof.Machine

/-- OPEN (R204). The initial counter is the draw on port `seq0` (R10). -/
def openSession (s : State) : State :=
  if s.opened then refuse s .eState
  else finish { s with ident := s.ports.ident, key := s.cfg.key0, iv := s.cfg.iv0, sid := s.cfg.sid0,
                       seq := s.ports.seq0, status := statusOpened } { res := .ok }

/-- Row OPEN (R204). -/
def execOpenOp (s : State) : Outcome := .next (openSession s)

/-- Row OP.RESERVED (R106): the block refuses the number with `E_OP` and changes nothing. -/
def execOpReserved (_op : Byte) (s : State) : Outcome := .next (refuse s .eOp)

end Sys2Proof.Machine
end

