-- ==== Sys2Proof/Machine/Dispatch.lean ====
section
/-! DEFINITION. Dispatch: one arm per constructor of Instr, each one direct call of that row's own meaning. -/

namespace Sys2Proof.Machine

def exec (i : Instr) (s : State) : Host.Outcome State Fault Refusal :=
  match i with
  | .csum => Sys2Proof.Machine.execCsum s
  | .csumvfy => Sys2Proof.Machine.execCsumvfy s
  | .cbcenc => Sys2Proof.Machine.execCbcenc s
  | .cbcdec => Sys2Proof.Machine.execCbcdec s
  | .openOp => Sys2Proof.Machine.execOpenOp s
  | .frame => Sys2Proof.Machine.execFrame s
  | .parse => Sys2Proof.Machine.execParse s
  | .disc => Sys2Proof.Machine.execDisc s
  | .hello => Sys2Proof.Machine.execHello s
  | .opReserved op => Sys2Proof.Machine.execOpReserved op s
  | .rspHs => Sys2Proof.Machine.execRspHs s
  | .rspDataEe => Sys2Proof.Machine.execRspDataEe s
  | .rspDataEf => Sys2Proof.Machine.execRspDataEf s
  | .rspOther rcmd => Sys2Proof.Machine.execRspOther rcmd s
  | .cmdOut => Sys2Proof.Machine.execCmdOut s
  | .payChecktemp => Sys2Proof.Machine.execPayChecktemp s
  | .paySendcode => Sys2Proof.Machine.execPaySendcode s
  | .payEnterlearn => Sys2Proof.Machine.execPayEnterlearn s
  | .payCheckdata => Sys2Proof.Machine.execPayCheckdata s
  | .payCancel => Sys2Proof.Machine.execPayCancel s
  | .payRfsweep => Sys2Proof.Machine.execPayRfsweep s
  | .payChecksweep => Sys2Proof.Machine.execPayChecksweep s
  | .payFindrf => Sys2Proof.Machine.execPayFindrf s
  | .replyTemp => Sys2Proof.Machine.execReplyTemp s
  | .replyCode => Sys2Proof.Machine.execReplyCode s
  | .replySweep => Sys2Proof.Machine.execReplySweep s
  | .replyRfdata => Sys2Proof.Machine.execReplyRfdata s
  | .replyOther param => Sys2Proof.Machine.execReplyOther param s
  | .sendChecktemp => Sys2Proof.Machine.execSendChecktemp s
  | .sendEnterlearn => Sys2Proof.Machine.execSendEnterlearn s
  | .sendCheckdata => Sys2Proof.Machine.execSendCheckdata s
  | .sendCancel => Sys2Proof.Machine.execSendCancel s
  | .sendRfsweep => Sys2Proof.Machine.execSendRfsweep s
  | .sendChecksweep => Sys2Proof.Machine.execSendChecksweep s
  | .sendFindrf => Sys2Proof.Machine.execSendFindrf s
  | .sendCode => Sys2Proof.Machine.execSendCode s
  | .vfypkt => Sys2Proof.Machine.execVfypkt s
  | .vfydisc => Sys2Proof.Machine.execVfydisc s

end Sys2Proof.Machine
end

