-- ==== Sys2Proof/Machine/Step.lean ====
section
/-! DEFINITION. One step: the next host action (spec/10_state.md R27, R30, R35; spec/60_exceptions.md R308). An
operation is exactly one step (spec/70_reset_and_hazards.md R350). A configuration that is not well formed is refused
(spec/00_scope.md R9). With nothing to do the block is idle and holds its registers (R322). -/

namespace Sys2Proof.Machine

/-- The state in which an action is performed: the action is no longer waiting. -/
def State.withQueue (s : State) (rest : List HostAction) : State := { s with queue := rest }

/-- The operand ports as the host presents them with an operation. -/
def State.withPorts (s : State) (p : Ports) : State := { s with ports := p }

/-- One host action on a state from whose queue it has been taken. An `off` that the port cannot carry (R31) is refused
(log 23). A row performed by its name runs without R274's dispatch (DESIGN CHOICE, log 24), a data reply decoded by
`decodeData` goes through it. -/
def perform (a : HostAction) (s : State) : Host.Outcome State Fault Refusal :=
  match a with
  | .reset => .next (hostReset s)
  | .fill b => hostFill b s
  | .issue p =>
    if p.off < s.cfg.maxDgram then exec (decodeOp p.op) (s.withPorts p) else .refused .offsetTooLarge
  | .perform i => if i.wf then exec i s else .refused .illFormedInstruction
  | .decodeData =>
    match replyRow s with
    | some i => exec i s
    | none => .next (setNote s none)

/-- One step of the machine. -/
def step (s : State) : Host.Outcome State Fault Refusal :=
  if s.cfg.WellFormed then
    match s.queue with
    | [] => .next s
    | a :: rest => perform a (s.withQueue rest)
  else .refused .configNotWellFormed

/-- `s` with the operation whose `op` byte is `w` presented as the next thing the host does, its other operands as
they stand on the ports (log 6). -/
def State.withFetchWord (s : State) (_nbits w : Nat) : State :=
  { s with queue := .issue { s.ports with op := BitVec.ofNat 8 w } :: s.queue }

end Sys2Proof.Machine
end

