-- ==== Sys2Proof/Laws/PerInstr.lean ====
section
/-! SUPPORT. The family `Encoding`: a well-formed row's byte, read in the row's format, decodes to the row (to the
operation of its expansion, for a pseudo-operation). One lemma per constructor. -/

/-- The row's byte decodes back (spec/30_encoding.md R100 to R106, R113). -/
def Sys2Proof.Laws.Encoding.Statement (i : Sys2Proof.Instr) : Prop :=
  i.wf = true → Sys2Proof.decodeIn i.format (Sys2Proof.encode i) = some i.core

namespace Sys2Proof.Laws.Encoding

theorem csum : Statement .csum := fun _ => rfl

theorem csumvfy : Statement .csumvfy := fun _ => rfl

theorem cbcenc : Statement .cbcenc := fun _ => rfl

theorem cbcdec : Statement .cbcdec := fun _ => rfl

theorem openOp : Statement .openOp := fun _ => rfl

theorem frame : Statement .frame := fun _ => rfl

theorem parse : Statement .parse := fun _ => rfl

theorem disc : Statement .disc := fun _ => rfl

theorem hello : Statement .hello := fun _ => rfl

theorem opReserved (op : Sys2Proof.Byte) : Statement (.opReserved op) := by
  intro h
  revert h
  revert op
  decide +kernel

theorem rspHs : Statement .rspHs := fun _ => rfl

theorem rspDataEe : Statement .rspDataEe := fun _ => rfl

theorem rspDataEf : Statement .rspDataEf := fun _ => rfl

theorem rspOther (rcmd : Sys2Proof.Byte) : Statement (.rspOther rcmd) := by
  intro h
  revert h
  revert rcmd
  decide +kernel

theorem cmdOut : Statement .cmdOut := fun _ => rfl

theorem payChecktemp : Statement .payChecktemp := fun _ => rfl

theorem paySendcode : Statement .paySendcode := fun _ => rfl

theorem payEnterlearn : Statement .payEnterlearn := fun _ => rfl

theorem payCheckdata : Statement .payCheckdata := fun _ => rfl

theorem payCancel : Statement .payCancel := fun _ => rfl

theorem payRfsweep : Statement .payRfsweep := fun _ => rfl

theorem payChecksweep : Statement .payChecksweep := fun _ => rfl

theorem payFindrf : Statement .payFindrf := fun _ => rfl

theorem replyTemp : Statement .replyTemp := fun _ => rfl

theorem replyCode : Statement .replyCode := fun _ => rfl

theorem replySweep : Statement .replySweep := fun _ => rfl

theorem replyRfdata : Statement .replyRfdata := fun _ => rfl

theorem replyOther (param : Sys2Proof.Byte) : Statement (.replyOther param) := by
  intro h
  revert h
  revert param
  decide +kernel

theorem sendChecktemp : Statement .sendChecktemp := fun _ => rfl

theorem sendEnterlearn : Statement .sendEnterlearn := fun _ => rfl

theorem sendCheckdata : Statement .sendCheckdata := fun _ => rfl

theorem sendCancel : Statement .sendCancel := fun _ => rfl

theorem sendRfsweep : Statement .sendRfsweep := fun _ => rfl

theorem sendChecksweep : Statement .sendChecksweep := fun _ => rfl

theorem sendFindrf : Statement .sendFindrf := fun _ => rfl

theorem sendCode : Statement .sendCode := fun _ => rfl

theorem vfypkt : Statement .vfypkt := fun _ => rfl

theorem vfydisc : Statement .vfydisc := fun _ => rfl

end Sys2Proof.Laws.Encoding
end

