-- ==== Sys2Proof/Safety.lean ====
section
/-! DEFINITION. The terms the statements use: the invariant of the machine (spec/10_state.md R20, R22, R25, R30;
spec/00_scope.md R9), the conditions under which FRAME and PARSE go through, byte ranges and blocks, and the sum of a
byte sequence as a natural number. -/

namespace Sys2Proof.Machine

/-- Both buffers are in canonical form and hold at most `MAX_DGRAM` bytes (R30). -/
abbrev State.BuffersOk (s : State) : Prop :=
  s.ib.wf = true ∧ s.ob.wf = true ∧ s.ib.len ≤ s.cfg.maxDgram ∧ s.ob.len ≤ s.cfg.maxDgram

/-- The port `off` carries a natural below `MAX_DGRAM` (R31). -/
abbrev State.PortsOk (s : State) : Prop := s.ports.off < s.cfg.maxDgram

/-- What `OB` holds as a data reply came from a PARSE, so from a session, and is whole blocks (R220, R224, R274). -/
abbrev State.ReplyOk (s : State) : Prop := s.dataReply = true → s.opened = true ∧ Aligned s.output

/-- `STATUS` is one of its legal values: bits 7:2 are zero, and `AUTH` only with `OPENED` (R20, R25). -/
abbrev State.StatusOk (s : State) : Prop :=
  statusReservedZero s.status = true ∧ (s.auth = true → s.opened = true)

/-- The `KEY` and `IV` invariant of R22. -/
abbrev State.KeysOk (s : State) : Prop :=
  s.iv = s.cfg.iv0 ∧ (s.auth = false → s.key = s.cfg.key0 ∧ s.sid = s.cfg.sid0)

/-- The invariant of the machine. -/
abbrev State.Inv (s : State) : Prop :=
  s.cfg.WellFormed ∧ s.BuffersOk ∧ s.PortsOk ∧ s.ReplyOk ∧ s.StatusOk ∧ s.KeysOk

/-- FRAME is performed and not refused (R210). -/
abbrev State.FrameReady (s : State) : Prop :=
  s.opened = true ∧ Aligned s.input ∧ hdrLen + s.input.length ≤ s.cfg.maxDgram

/-- PARSE reaches its dispatch (R220 to R224). -/
abbrev State.ParseReady (s : State) : Prop :=
  s.opened = true ∧ hdrLen ≤ s.input.length ∧
  (errorCode s.cfg s.input = 0 ∨ s.cfg.rxStopOnErr = false) ∧ Aligned (ciphertext s.input)

/-- The plaintext PARSE deciphers (R224). -/
def State.plaintext (s : State) : List Byte := cbcDec s.key s.iv (ciphertext s.input)

/-- The state after an operation that sets the result ports only. -/
def State.withOut (s : State) (r : Result) : State := { s with out := some r }

/-- Address `a` lies in the byte range `[o, o + n)`. -/
abbrev InRange (a o n : Nat) : Prop := o ≤ a ∧ a < o + n

/-- Header byte `a` belongs to one of the six command-header fields (R60). -/
abbrev InField (c : Cfg) (a : Nat) : Prop := ∃ f ∈ c.cmdFields, InRange a f.1 f.2

/-- `p` is the command packet of R60: 56 header bytes with the six fields in their places, every other header byte
from the template, then the ciphertext of the payload. -/
structure IsCommandPacket (c : Cfg) (cmd : Byte) (seq : Half) (ident : Bytes 6) (sid : Bytes 4) (key iv : Bytes 16)
    (payload p : List Byte) : Prop where
  length : p.length = 56 + payload.length
  command : byteAt p c.offCmd = cmd
  sequence : le16 p c.offSeq = seq
  identity : ∀ i < 6, byteAt p (c.offIdent + i) = byteAt ident.toList (5 - i)
  session : ∀ i < 4, byteAt p (c.offSid + i) = byteAt sid.toList i
  payloadChecksum : le16 p c.offPaycs = csum payload
  packetChecksum : le16 p c.offPktcs = csum (zero16 p c.offPktcs)
  template : ∀ a < 56, ¬ InField c a → byteAt p a = byteAt c.hdrTemplate.toList a
  cipher : p.drop 56 = cbcEnc key iv payload

/-- The rows PAY16 of the table with their codes (R103). -/
def payRows : List (Instr × Byte) :=
  [(.payChecktemp, 0x01#8), (.payEnterlearn, 0x03#8), (.payCheckdata, 0x04#8), (.payRfsweep, 0x19#8),
   (.payChecksweep, 0x1a#8), (.payFindrf, 0x1b#8), (.payCancel, 0x1e#8)]

/-- The pseudo-operations that send a PAY16 template, with its code (R113). -/
def sendRows : List (Instr × Byte) :=
  [(.sendChecktemp, 0x01#8), (.sendEnterlearn, 0x03#8), (.sendCheckdata, 0x04#8), (.sendRfsweep, 0x19#8),
   (.sendChecksweep, 0x1a#8), (.sendFindrf, 0x1b#8), (.sendCancel, 0x1e#8)]

/-- The command byte under which a row receives the datagram in `IB`: PARSE reads it from the header (R97), a
response command row is one (R101). -/
def receivedCommand (s : State) : Instr → Option Byte
  | .parse => some (commandByte s.cfg s.input)
  | .rspHs => some 0xe9#8
  | .rspDataEe => some 0xee#8
  | .rspDataEf => some 0xef#8
  | .rspOther b => some b
  | _ => none

/-- The verdict R101 gives a command byte. -/
def verdictOf (rcmd : Byte) : Verdict :=
  if rcmd = 0xe9#8 then .ready else if rcmd = 0xee#8 ∨ rcmd = 0xef#8 then .data else .unknown

/-- The events R305 gives for what a result reports. -/
def eventsOf (r : Result) : List Event :=
  (match r.rerr with
   | some c => if c ≠ 0 then [Event.devErr c] else []
   | none => []) ++
  (match r.verdict, r.rcmd with
   | some .ready, _ => [Event.ready]
   | some .data, _ => [Event.data]
   | some .unknown, some b => [Event.unknown b]
   | _, _ => [])

/-- Block `j` of a sequence, `B[16j .. 16j+16)` (R181). -/
def blockAt (b : List Byte) (j : Nat) : Bytes 16 := toBytes 16 (slice b (16 * j) (16 * j + 16))

/-- The sum of the bytes as natural numbers (R120). -/
def sumBytes (b : List Byte) : Nat := (b.map BitVec.toNat).sum

/-- An outcome with its next state, if any, changed by `f`. -/
def mapNext (f : State → State) : Host.Outcome State Fault Refusal → Host.Outcome State Fault Refusal
  | .next t => .next (f t)
  | .fault r => .fault r
  | .refused r => .refused r

/-- `k` FRAMEs in a row on the same input. -/
def frames : Nat → State → Host.Outcome State Fault Refusal
  | 0, s => .next s
  | k + 1, s =>
    match exec .frame s with
    | .next t => frames k t
    | .fault r => .fault r
    | .refused r => .refused r

end Sys2Proof.Machine
end

