-- ==== Sys2Proof/Certificates/Slice0/Obligations.lean ====
section
/-! DEFINITION. The statements for the provers, each about the machine or one of its functions; none is about a
program. Each docstring names the rule of spec/ it formalises; where the spec marks the rule as its own decision the
docstring says so. -/

open Sys2Proof Sys2Proof.Machine

/-! ### Encoding -/

/-- R100 to R106, R108, R113: in every format of bytes a byte decodes to a row exactly if the row is well formed, belongs to
the format and has that byte, so decoding and encoding agree both ways; the byte of a pseudo-operation decodes to the
operation it expands to. -/
def Obligations.RowByteDecodesToItsRow : Prop :=
  (∀ (f : Format) (b : Byte) (i : Instr), f ≠ .pseudo →
    (decodeIn f b = some i ↔ i.wf = true ∧ i.format = f ∧ encode i = b)) ∧
  (∀ i : Instr, i.format = .pseudo → decodeIn .pseudo (encode i) = some i.core ∧ i.core.format = .op)

/-- R100, R101, R104, R106, R107: every byte has exactly one row in each of the formats that decode totally, that row
is well formed, and its byte is the byte read. -/
def Obligations.EveryByteDecodesToAWellFormedRow : Prop :=
  ∀ b : Byte,
    ((decodeOp b).wf = true ∧ (decodeOp b).format = .op ∧ encode (decodeOp b) = b) ∧
    ((decodeRsp b).wf = true ∧ (decodeRsp b).format = .rspcmd ∧ encode (decodeRsp b) = b) ∧
    ((decodeReply b).wf = true ∧ (decodeReply b).format = .reply ∧ encode (decodeReply b) = b)

/-- R100, R101, R102, R103: bytes written out from the spec's tables decode to the rows they stand for. -/
def Obligations.SpecBytesDecode : Prop :=
  decodeTableWord 8 0x01 = some .csum ∧ decodeTableWord 8 0x02 = some .csumvfy ∧
  decodeTableWord 8 0x10 = some .cbcenc ∧ decodeTableWord 8 0x11 = some .cbcdec ∧
  decodeTableWord 8 0x20 = some .openOp ∧ decodeTableWord 8 0x21 = some .frame ∧
  decodeTableWord 8 0x22 = some .parse ∧ decodeTableWord 8 0x23 = some .disc ∧
  decodeTableWord 8 0x24 = some .hello ∧ decodeTableWord 8 0x25 = some (.opReserved 0x25#8) ∧
  decodeIn .rspcmd 0xe9#8 = some .rspHs ∧ decodeIn .cmdpkt 0x6a#8 = some .cmdOut ∧
  decodeIn .pay16 0x1e#8 = some .payCancel ∧ decodeIn .paycode 0x02#8 = some .paySendcode ∧
  decodeIn .reply 0x1a#8 = some .replySweep

/-! ### Steps -/

/-- R27, R31, R64, R80, R350: when the next host action presents an operation, with an offset that the port can carry, the
step is exactly that operation, decoded from the `op` port, on the state with the ports as presented. -/
def Obligations.StepRunsTheDecodedOperation : Prop :=
  ∀ (s : State) (p : Ports) (rest : List HostAction), s.cfg.WellFormed → p.off < s.cfg.maxDgram →
    s.queue = .issue p :: rest → step s = exec (decodeOp p.op) { s with queue := rest, ports := p }

/-- R30, R35, R113, R274, R322 and the model's queue (log 6): the other host actions, the idle block, and the four
refusals of `step`, which are the model's (logs 6, 16, 17, 23). The reset clause gives the whole state: of it `SEQ` and
`IDENT` at zero are the model's choice, since R35 gives them no value (log 2, DESIGN CHOICE), and so are the result at
none (log 5), the kept ports, queue and notification (log 6) and the cleared mark of a data reply (log 15). A data reply
is decoded as long as it stands in `OB`, whatever the last result is (log 15). -/
def Obligations.StepPerformsTheHostAction : Prop :=
  ∀ (s : State) (rest : List HostAction),
    (s.cfg.WellFormed → s.queue = [] → step s = .next s) ∧
    (s.cfg.WellFormed → s.queue = .reset :: rest →
      step s = .next { State.resetWith s.cfg with ports := s.ports, queue := rest, note := s.note }) ∧
    (∀ b, s.cfg.WellFormed → s.queue = .fill b :: rest → b.length ≤ s.cfg.maxDgram →
      step s = .next { s with queue := rest, ib := Memory.ofBytes b }) ∧
    (∀ b, s.cfg.WellFormed → s.queue = .fill b :: rest → s.cfg.maxDgram < b.length →
      step s = .refused .inputTooLong) ∧
    (∀ p, s.cfg.WellFormed → s.queue = .issue p :: rest → s.cfg.maxDgram ≤ p.off →
      step s = .refused .offsetTooLarge) ∧
    (∀ i, s.cfg.WellFormed → s.queue = .perform i :: rest → i.wf = true →
      step s = exec i { s with queue := rest }) ∧
    (∀ i, s.cfg.WellFormed → s.queue = .perform i :: rest → i.wf = false →
      step s = .refused .illFormedInstruction) ∧
    (∀ param pt, s.cfg.WellFormed → s.queue = .decodeData :: rest → s.dataReply = true → s.output = param :: pt →
      step s = exec (decodeReply param) { s with queue := rest }) ∧
    (s.cfg.WellFormed → s.queue = .decodeData :: rest → s.dataReply = false ∨ s.output = [] →
      step s = .next { s with queue := rest, note := none }) ∧
    (¬ s.cfg.WellFormed → step s = .refused .configNotWellFormed)

/-! ### Reset and the invariant -/

/-- 10_state.md R35, 70_reset_and_hazards.md R330: reset loads the configured key, initialization vector and session id,
clears `STATUS` and empties both buffers, at power-on and at the host's request, which is an action of the model's
queue (log 6). The values of `SEQ` and `IDENT` after reset are the model's (log 2) and no part of this statement. -/
def Obligations.ResetLoadsTheConfiguredValues : Prop :=
  ∀ s : State, s.cfg.WellFormed → ∀ t : State,
    (t = State.resetWith s.cfg ∨ ∃ rest, s.queue = .reset :: rest ∧ step s = .next t) →
    t.cfg = s.cfg ∧ t.key = s.cfg.key0 ∧ t.iv = s.cfg.iv0 ∧ t.sid = s.cfg.sid0 ∧ t.status = 0x00#8 ∧
    t.ib = [] ∧ t.ob = []

/-- The state right after reset meets the invariant, under the reference configuration and under every well-formed
one. -/
def Obligations.ResetMeetsTheInvariant : Prop :=
  State.reset.Inv ∧ ∀ c : Cfg, c.WellFormed → (State.resetWith c).Inv

/-- R9, R20, R22, R25, R30, R31: every step from a state that meets the invariant gives a state that meets it: the
configuration well formed, the buffers canonical and within `MAX_DGRAM`, the port `off` below `MAX_DGRAM`, a data reply in
`OB` only in a session and of whole blocks, `STATUS` legal, `IV = IV0`, and `KEY`, `SID` the pre-shared constants until a
handshake reply has been installed. -/
def Obligations.StepKeepsTheInvariant : Prop :=
  ∀ s t : State, s.Inv → step s = .next t → t.Inv

/-- R22, R24, R25, R331: what one step can do to the flags. Unless the host requests reset, `OPENED` and `AUTH` stay
set; `OPENED` becomes set only by an OPEN with result `OK`, `AUTH` only by a PARSE with verdict `V_READY`. -/
def Obligations.StatusRecordsOpenAndReady : Prop :=
  ∀ s t : State, s.Inv → step s = .next t → (∀ rest, s.queue ≠ .reset :: rest) →
    (s.opened = true → t.opened = true) ∧ (s.auth = true → t.auth = true) ∧
    (s.opened = false → t.opened = true →
      t.out = some { res := .ok } ∧ ∃ a rest, s.queue = a :: rest ∧
        (a = .perform .openOp ∨ ∃ p, a = .issue p ∧ p.op = 0x20#8)) ∧
    (s.auth = false → t.auth = true → ∃ r, t.out = some r ∧ r.verdict = some .ready)

/-- R22, R23: in an open session only a step whose verdict is `V_READY` replaces `KEY` or `SID`, and no step but
reset changes `IV`. -/
def Obligations.KeyReplacedOnlyByReady : Prop :=
  ∀ s t : State, s.opened = true → step s = .next t → (∀ rest, s.queue ≠ .reset :: rest) →
    t.iv = s.iv ∧ t.ident = s.ident ∧
    (t.key ≠ s.key ∨ t.sid ≠ s.sid → ∃ r, t.out = some r ∧ r.verdict = some .ready)

/-! ### Checksum -/

/-- R120: the checksum is the seed plus the sum of all bytes, each unsigned, reduced modulo 65536. -/
def Obligations.CsumIsSeedPlusSum : Prop :=
  ∀ b : List Byte, (csum b).toNat = (0xBEAF + sumBytes b) % 65536

/-- R122 (a) to (d): the empty sequence, concatenation, permutation and zero bytes, and a changed byte. -/
def Obligations.CsumLaws : Prop :=
  csum [] = 0xBEAF ∧
  (∀ a b : List Byte, csum (a ++ b) = csum a + csum b - 0xBEAF) ∧
  (∀ a b : List Byte, a.Perm b → csum a = csum b) ∧
  (∀ a b : List Byte, csum (a ++ 0x00#8 :: b) = csum (a ++ b)) ∧
  (∀ (b : List Byte) (o : Nat) (v : Byte), o < b.length →
    csum (putByte b o v) = csum b - (byteAt b o).setWidth 16 + v.setWidth 16)

/-- R124: CSUM returns `OK` and the checksum of `IB`, for every length and in every state, and changes nothing else. -/
def Obligations.CsumReturnsTheChecksum : Prop :=
  ∀ s : State, ∃ v : Half, v.toNat = (0xBEAF + sumBytes s.input) % 65536 ∧
    exec .csum s = .next { s with out := some { res := .ok, val16 := some v } }

/-- R127: CSUMVFY recomputes the checksum with the field zeroed, compares it with the stored little-endian value, and
is refused with `E_RANGE` when the field does not lie inside `IB`; it changes nothing else. -/
def Obligations.CsumvfyChecksTheStoredField : Prop :=
  ∀ s : State,
    (s.ports.off + 2 ≤ s.input.length → ∃ v : Half,
      v.toNat = (0xBEAF + sumBytes (zero16 s.input s.ports.off)) % 65536 ∧
      exec .csumvfy s = .next (s.withOut
        { res := .ok, val16 := some v,
          okFlag := some (decide (v.toNat = (byteAt s.input s.ports.off).toNat +
            256 * (byteAt s.input (s.ports.off + 1)).toNat)) })) ∧
    (s.input.length < s.ports.off + 2 → exec .csumvfy s = .next { s with out := some { res := .eRange } })

/-! ### AES-128 -/

/-- R143: `xtime`; `mul` by a single bit is a power of `xtime`, and `mul` distributes over `^`, so it is the XOR over the
set bits; it is commutative and associative, with 1 as its identity; the examples. -/
def Obligations.GfMultiplicationLaws : Prop :=
  (∀ a : Byte, xtime a = if a.getLsbD 7 then (a <<< 1) ^^^ 0x1B#8 else a <<< 1) ∧
  (∀ a b : Byte, mul a b = mul b a) ∧
  (∀ a b c : Byte, mul (mul a b) c = mul a (mul b c)) ∧
  (∀ a b c : Byte, mul a (b ^^^ c) = mul a b ^^^ mul a c) ∧
  (∀ a : Byte, mul a 1 = a) ∧ (∀ a : Byte, mul a 0 = 0) ∧
  (∀ (a : Byte) (i : Nat), i < 8 → mul a (1#8 <<< i) = xtimes i a) ∧
  xtime 0x57#8 = 0xAE#8 ∧ mul 0x57#8 0x13#8 = 0xFE#8 ∧ mul 0x57#8 0x83#8 = 0xC1#8

/-- R144: for a nonzero byte `inv(a)` is the unique byte whose product with `a` is 1; `inv(0) = 0`. -/
def Obligations.GfInverseIsUnique : Prop :=
  inv 0 = 0 ∧ ∀ a : Byte, a ≠ 0 → mul a (inv a) = 1 ∧ ∀ x : Byte, mul a x = 1 → x = inv a

/-- R145, R146: the tables are the affine map of the inverse, bit by bit, and its inverse permutation, without a fixed
point. -/
def Obligations.SboxIsAffineOfInverse : Prop :=
  ∀ a : Byte,
    (∀ i < 8, (sbox a).getLsbD i = ((inv a).getLsbD i ^^ (inv a).getLsbD ((i + 4) % 8) ^^
      (inv a).getLsbD ((i + 5) % 8) ^^ (inv a).getLsbD ((i + 6) % 8) ^^ (inv a).getLsbD ((i + 7) % 8) ^^
      (0x63#8).getLsbD i)) ∧ sbox a ≠ a ∧ invSbox (sbox a) = a ∧ sbox (invSbox a) = a

/-- R147, R150: the key schedule: the first four words are the key, every later word is the XOR of the word four before
it with the previous word, which at every fourth word is rotated, substituted and given the round constant; a round key
is four words in order, and `RK[0] = KEY`. -/
def Obligations.KeyScheduleRecurrence : Prop :=
  ∀ key : Bytes 16,
    (∀ i < 4, keyWord key i = toBytes 4 (slice key.toList (4 * i) (4 * i + 4))) ∧
    (∀ i, 4 ≤ i → i < 44 → i % 4 ≠ 0 → keyWord key i = xorBytes (keyWord key (i - 4)) (keyWord key (i - 1))) ∧
    (∀ i, 4 ≤ i → i < 44 → i % 4 = 0 → ∀ t : Bytes 4, t = keyWord key (i - 1) → keyWord key i =
      xorBytes (keyWord key (i - 4))
        #v[sbox t[1] ^^^ xtimes (i / 4 - 1) 0x01#8, sbox t[2], sbox t[3], sbox t[0]]) ∧
    (∀ r : Fin 11, ((keyExpand key).get r).toList = (keyWord key (4 * r.val)).toList ++
      (keyWord key (4 * r.val + 1)).toList ++ (keyWord key (4 * r.val + 2)).toList ++
      (keyWord key (4 * r.val + 3)).toList) ∧
    (keyExpand key).get 0 = key

/-- R154: `shift_rows` rotates row `r` left by `r`, `inv_shift_rows` right by `r`, and each undoes the other. -/
def Obligations.ShiftRowsRotatesRows : Prop :=
  ∀ s : Bytes 16,
    (∀ r c : Fin 4, (shiftRows s).get ⟨4 * c.val + r.val, by omega⟩ =
      s.get ⟨4 * ((c.val + r.val) % 4) + r.val, by omega⟩) ∧
    (∀ r c : Fin 4, (invShiftRows s).get ⟨4 * ((c.val + r.val) % 4) + r.val, by omega⟩ =
      s.get ⟨4 * c.val + r.val, by omega⟩) ∧
    invShiftRows (shiftRows s) = s ∧ shiftRows (invShiftRows s) = s

/-- R152, R153, R155, R156: each byte of `add_round_key` is the XOR, each byte of `sub_bytes` and `inv_sub_bytes` the table's
entry, each column of `mix_columns` and `inv_mix_columns` the four sums of products; `add_round_key` is its own inverse,
the substitutions and the column mixes undo each other. -/
def Obligations.RoundTransformsAreInverses : Prop :=
  ∀ s k : Bytes 16,
    (∀ i : Fin 16, (addRoundKey s k).get i = s.get i ^^^ k.get i) ∧
    (∀ i : Fin 16, (subBytes s).get i = sbox (s.get i) ∧ (invSubBytes s).get i = invSbox (s.get i)) ∧
    (∀ (c : Fin 4) (a₀ a₁ a₂ a₃ : Byte), column s c = #v[a₀, a₁, a₂, a₃] →
      column (mixColumns s) c =
        #v[mul 2 a₀ ^^^ mul 3 a₁ ^^^ a₂ ^^^ a₃, a₀ ^^^ mul 2 a₁ ^^^ mul 3 a₂ ^^^ a₃,
           a₀ ^^^ a₁ ^^^ mul 2 a₂ ^^^ mul 3 a₃, mul 3 a₀ ^^^ a₁ ^^^ a₂ ^^^ mul 2 a₃] ∧
      column (invMixColumns s) c =
        #v[mul 14 a₀ ^^^ mul 11 a₁ ^^^ mul 13 a₂ ^^^ mul 9 a₃, mul 9 a₀ ^^^ mul 14 a₁ ^^^ mul 11 a₂ ^^^ mul 13 a₃,
           mul 13 a₀ ^^^ mul 9 a₁ ^^^ mul 14 a₂ ^^^ mul 11 a₃, mul 11 a₀ ^^^ mul 13 a₁ ^^^ mul 9 a₂ ^^^ mul 14 a₃]) ∧
    addRoundKey (addRoundKey s k) k = s ∧
    invSubBytes (subBytes s) = s ∧ subBytes (invSubBytes s) = s ∧
    invMixColumns (mixColumns s) = s ∧ mixColumns (invMixColumns s) = s

/-- R160, R161: the ten rounds of the cipher and of its inverse, under any round keys: `e` and `d` are the states after each
round, the last round has no column mix, and the inverse takes the round keys in reverse order. -/
def Obligations.BlockFunctionsRunTenRounds : Prop :=
  ∀ (rk : Vector (Bytes 16) 11) (b : Bytes 16), ∃ e d : Nat → Bytes 16,
    e 0 = addRoundKey b (rk.get 0) ∧
    (∀ r (h : r < 9), e (r + 1) =
      addRoundKey (mixColumns (shiftRows (subBytes (e r)))) (rk.get ⟨r + 1, by omega⟩)) ∧
    aesEncBlock rk b = addRoundKey (shiftRows (subBytes (e 9))) (rk.get 10) ∧
    d 0 = addRoundKey b (rk.get 10) ∧
    (∀ r (h : r < 9), d (r + 1) =
      invMixColumns (addRoundKey (invSubBytes (invShiftRows (d r))) (rk.get ⟨9 - r, by omega⟩))) ∧
    aesDecBlock rk b = addRoundKey (invSubBytes (invShiftRows (d 9))) (rk.get 0)

/-- R160, R161: the FIPS-197 example of R160 and the one of R161. -/
def Obligations.AesPublishedVectors : Prop :=
  aesEncBlock (keyExpand #v[0x2b, 0x7e, 0x15, 0x16, 0x28, 0xae, 0xd2, 0xa6, 0xab, 0xf7, 0x15, 0x88, 0x09, 0xcf, 0x4f, 0x3c])
      #v[0x32, 0x43, 0xf6, 0xa8, 0x88, 0x5a, 0x30, 0x8d, 0x31, 0x31, 0x98, 0xa2, 0xe0, 0x37, 0x07, 0x34] =
    #v[0x39, 0x25, 0x84, 0x1d, 0x02, 0xdc, 0x09, 0xfb, 0xdc, 0x11, 0x85, 0x97, 0x19, 0x6a, 0x0b, 0x32] ∧
  aesDecBlock (keyExpand #v[0x00, 0x01, 0x02, 0x03, 0x04, 0x05, 0x06, 0x07, 0x08, 0x09, 0x0a, 0x0b, 0x0c, 0x0d, 0x0e, 0x0f])
      #v[0x69, 0xc4, 0xe0, 0xd8, 0x6a, 0x7b, 0x04, 0x30, 0xd8, 0xcd, 0xb7, 0x80, 0x70, 0xb4, 0xc5, 0x5a] =
    #v[0x00, 0x11, 0x22, 0x33, 0x44, 0x55, 0x66, 0x77, 0x88, 0x99, 0xaa, 0xbb, 0xcc, 0xdd, 0xee, 0xff]

/-- R162: for every key the block functions are inverses of each other. -/
def Obligations.AesBlockFunctionsAreInverses : Prop :=
  ∀ k b : Bytes 16,
    aesDecBlock (keyExpand k) (aesEncBlock (keyExpand k) b) = b ∧
    aesEncBlock (keyExpand k) (aesDecBlock (keyExpand k) b) = b

/-! ### CBC -/

/-- R181: block by block, each ciphertext block is the cipher of its plaintext block XORed with the block before it
(with `V` for the first), and each plaintext block the converse; lengths are kept. -/
def Obligations.CbcBlockEquations : Prop :=
  ∀ (k v : Bytes 16) (b : List Byte), Aligned b →
    (cbcEnc k v b).length = b.length ∧ (cbcDec k v b).length = b.length ∧
    ∀ j < b.length / 16,
      blockAt (cbcEnc k v b) j = aesEncBlock (keyExpand k)
        (xorBytes (blockAt b j) (if j = 0 then v else blockAt (cbcEnc k v b) (j - 1))) ∧
      blockAt (cbcDec k v b) j = xorBytes (aesDecBlock (keyExpand k) (blockAt b j))
        (if j = 0 then v else blockAt b (j - 1))

/-- R182: decipher after encipher, and encipher after decipher, give back every sequence of whole blocks, under every
key and initialization vector. -/
def Obligations.CbcRoundTrip : Prop :=
  ∀ (k v : Bytes 16) (p : List Byte), Aligned p →
    cbcDec k v (cbcEnc k v p) = p ∧ cbcEnc k v (cbcDec k v p) = p

/-- R183 (b): two plaintexts that agree on their first `j` blocks give ciphertexts that agree on their first `j`
blocks. -/
def Obligations.CbcCiphertextPrefix : Prop :=
  ∀ (k v : Bytes 16) (p q : List Byte) (j : Nat), Aligned p → Aligned q → 16 * j ≤ p.length → 16 * j ≤ q.length →
    p.take (16 * j) = q.take (16 * j) → (cbcEnc k v p).take (16 * j) = (cbcEnc k v q).take (16 * j)

/-- R183 (c): changing ciphertext block `j` changes plaintext blocks `j` and `j + 1` only. -/
def Obligations.CbcErrorPropagation : Prop :=
  ∀ (k v : Bytes 16) (c d : List Byte) (j : Nat), Aligned c → c.length = d.length →
    (∀ m < c.length / 16, m ≠ j → blockAt c m = blockAt d m) →
    ∀ m < c.length / 16, m ≠ j → m ≠ j + 1 → blockAt (cbcDec k v c) m = blockAt (cbcDec k v d) m

/-- R184, R187: CBCENC and CBCDEC put the enciphered or deciphered input in `OB`, of the input's length, and change
nothing else; an unaligned length is refused with `E_ALIGN`. Neither looks at `OPENED`. -/
def Obligations.CipherOperationsTransformIb : Prop :=
  ∀ s : State,
    (Aligned s.input →
      exec .cbcenc s = .next { s with
        ob := Memory.ofBytes (cbcEnc s.key s.iv s.input), dataReply := false, out := some { res := .ok } } ∧
      (cbcEnc s.key s.iv s.input).length = s.input.length ∧
      exec .cbcdec s = .next { s with
        ob := Memory.ofBytes (cbcDec s.key s.iv s.input), dataReply := false, out := some { res := .ok } } ∧
      (cbcDec s.key s.iv s.input).length = s.input.length) ∧
    (¬ Aligned s.input →
      exec .cbcenc s = .next { s with out := some { res := .eAlign } } ∧
      exec .cbcdec s = .next { s with out := some { res := .eAlign } })

/-- R182, DOC0's round-trip property on the machine: CBCENC, the host moving `OB` to `IB`, CBCDEC: `OB` holds the
original input. -/
def Obligations.CbcencThenCbcdecRestoresTheInput : Prop :=
  ∀ s : State, Aligned s.input → ∃ t u : State,
    exec .cbcenc s = .next t ∧ exec .cbcdec { t with ib := t.ob } = .next u ∧ u.output = s.input

/-! ### OPEN and FRAME -/

/-- R204: OPEN loads the session registers, `SEQ` from the draw, and sets `STATUS` to 0x01; in an open session it is
refused with `E_STATE`. -/
def Obligations.OpenLoadsTheSession : Prop :=
  ∀ s : State,
    (s.opened = false → exec .openOp s = .next
      { s with ident := s.ports.ident, key := s.cfg.key0, iv := s.cfg.iv0, sid := s.cfg.sid0,
               seq := s.ports.seq0, status := 0x01#8, out := some { res := .ok } }) ∧
    (s.opened = true → exec .openOp s = .next { s with out := some { res := .eState } })

/-- R210 (the spec's decisions D9, D14, D22, D34): FRAME's checks in their order; a refused FRAME changes nothing but the
result, `SEQ` included. -/
def Obligations.FrameChecksInOrder : Prop :=
  ∀ s : State,
    (s.opened = false → exec .frame s = .next { s with out := some { res := .eState } }) ∧
    (s.opened = true → ¬ Aligned s.input → exec .frame s = .next { s with out := some { res := .eAlign } }) ∧
    (s.opened = true → Aligned s.input → s.cfg.maxDgram < 56 + s.input.length →
      exec .frame s = .next { s with out := some { res := .eLen } })

/-- R60, R90 to R95, R211, R213: FRAME increments `SEQ` and puts in `OB` the command packet that carries `cmd`, the
incremented counter, the reversed identity, the session id, the two checksums, the template elsewhere, and the
ciphertext; it changes nothing else. -/
def Obligations.FrameBuildsTheCommandPacket : Prop :=
  ∀ s : State, s.cfg.WellFormed → s.FrameReady → ∃ p : List Byte,
    exec .frame s = .next
      { s with seq := s.seq + 1, ob := Memory.ofBytes p, dataReply := false, out := some { res := .ok } } ∧
    IsCommandPacket s.cfg s.ports.cmd (s.seq + 1) s.ident s.sid s.key s.iv s.input p

/-- R102: CMD.OUT frames the payload in `IB` under the outer command byte 0x6a; SEND.CODE is the same on a payload
the host built (R113, R264). Where FRAME refuses (R210), its refusal is the result, and only the ports are as the host
drove them. -/
def Obligations.OuterCommandFramesUnder6a : Prop :=
  ∀ (s d : State) (i : Instr), i = .cmdOut ∨ i = .sendCode →
    d = { s with ports := { s.ports with op := 0x21#8, cmd := 0x6a#8 } } →
    (s.cfg.WellFormed → s.FrameReady → ∃ p : List Byte,
      exec i s = .next
        { d with seq := s.seq + 1, ob := Memory.ofBytes p, dataReply := false, out := some { res := .ok } } ∧
      IsCommandPacket s.cfg 0x6a#8 (s.seq + 1) s.ident s.sid s.key s.iv s.input p) ∧
    (s.opened = false → exec i s = .next { d with out := some { res := .eState } }) ∧
    (s.opened = true → ¬ Aligned s.input → exec i s = .next { d with out := some { res := .eAlign } }) ∧
    (s.opened = true → Aligned s.input → s.cfg.maxDgram < 56 + s.input.length →
      exec i s = .next { d with out := some { res := .eLen } })

/-- R212: after `k` FRAMEs of one session `SEQ` is the starting value plus `k` modulo 65536, the last packet carries
the counter after its increment, and after 65536 sends the counter is what it was. -/
def Obligations.SequenceCounterWraps : Prop :=
  ∀ (k : Nat) (s : State), s.cfg.WellFormed → s.FrameReady → ∃ t : State,
    frames k s = .next t ∧ t.seq.toNat = (s.seq.toNat + k) % 65536 ∧
    (0 < k → le16 t.output s.cfg.offSeq = t.seq) ∧ (k = 65536 → t.seq = s.seq)

/-- R213 (e): two FRAMEs in a row on the same input and command differ only in the sequence bytes and the whole-packet
checksum bytes. -/
def Obligations.RepeatedFrameDiffersInFourBytes : Prop :=
  ∀ s : State, s.cfg.WellFormed → s.FrameReady → ∃ t u : State,
    exec .frame s = .next t ∧ exec .frame t = .next u ∧ t.output.length = u.output.length ∧
    ∀ a, byteAt t.output a ≠ byteAt u.output a → InRange a s.cfg.offSeq 2 ∨ InRange a s.cfg.offPktcs 2

/-- R128, R213 (b): the packet FRAME builds passes CSUMVFY at `OFF_PKTCS`. That VFYPKT gives the same result rests on its
expansion (30_encoding.md R113) and on the row being an instruction of its own, which is the model's (log 14, DEDUCED). -/
def Obligations.FramedPacketVerifies : Prop :=
  ∀ s : State, s.cfg.WellFormed → s.FrameReady → ∃ t u v : State, ∃ r : Result,
    exec .frame s = .next t ∧
    exec .csumvfy { t with ib := t.ob, ports := { t.ports with off := s.cfg.offPktcs } } = .next u ∧
    u.out = some r ∧ r.res = .ok ∧ r.okFlag = some true ∧
    exec .vfypkt { t with ib := t.ob } = .next v ∧ v.out = some r

/-- R128: the packet DISC builds passes CSUMVFY at `DISC_OFF_CS`. That VFYDISC gives the same result rests on its expansion
(30_encoding.md R113) and on the row being an instruction of its own, which is the model's (log 14, DEDUCED). -/
def Obligations.DiscoveryPacketVerifies : Prop :=
  ∀ s : State, s.cfg.WellFormed → s.input.length = 48 → ∃ t u v : State, ∃ r : Result,
    exec .disc s = .next t ∧
    exec .csumvfy { t with ib := t.ob, ports := { t.ports with off := s.cfg.discOffCs } } = .next u ∧
    u.out = some r ∧ r.res = .ok ∧ r.okFlag = some true ∧
    exec .vfydisc { t with ib := t.ob } = .next v ∧ v.out = some r

/-- R240: DISC writes the checksum of the image, computed with its field zeroed, into that field and no other byte; an
image of another length is refused with `E_LEN`. -/
def Obligations.DiscCompletesTheImage : Prop :=
  ∀ s : State,
    (s.cfg.WellFormed → s.input.length = 48 → ∃ p : List Byte,
      exec .disc s = .next { s with ob := Memory.ofBytes p, dataReply := false, out := some { res := .ok } } ∧
      p.length = 48 ∧
      (le16 p s.cfg.discOffCs).toNat = (0xBEAF + sumBytes (zero16 s.input s.cfg.discOffCs)) % 65536 ∧
      ∀ a, ¬ InRange a s.cfg.discOffCs 2 → byteAt p a = byteAt s.input a) ∧
    (s.input.length ≠ 48 → exec .disc s = .next { s with out := some { res := .eLen } })

/-! ### PARSE and HELLO -/

/-- R220, R222, and of R223, R224, R307 what concerns a datagram that is ignored: the refusal and the ways PARSE ignores a
datagram before its dispatch, in their order (the spec's decisions D10, D12, D14, D22). Nothing changes but `OB`, which becomes empty, and
the result; the refusal leaves `OB` too. -/
def Obligations.MalformedDatagramsAreIgnored : Prop :=
  ∀ (s : State) (cmd : Byte), cmd = commandByte s.cfg s.input →
    (s.opened = false → exec .parse s = .next { s with out := some { res := .eState } }) ∧
    (s.opened = true → s.input.length < 56 → exec .parse s = .next
      { s with
        ob := []
        dataReply := false
        out := some { res := .ok, verdict := some .ignored, why := some .short, rcmd := some 0, rerr := some 0 } }) ∧
    (s.opened = true → 56 ≤ s.input.length → errorCode s.cfg s.input ≠ 0 → s.cfg.rxStopOnErr = true →
      exec .parse s = .next (State.withOut { s with ob := [], dataReply := false }
        { res := .ok, verdict := some .ignored, why := some .devErr, rcmd := some cmd,
          rerr := some (errorCode s.cfg s.input), events := [.devErr (errorCode s.cfg s.input)] })) ∧
    (s.opened = true → 56 ≤ s.input.length → (errorCode s.cfg s.input = 0 ∨ s.cfg.rxStopOnErr = false) →
      (s.input.length - 56) % 16 ≠ 0 → exec .parse s = .next (State.withOut { s with ob := [], dataReply := false }
        { res := .ok, verdict := some .ignored, why := some .align, rcmd := some cmd,
          rerr := some (errorCode s.cfg s.input), events := errorEvents (errorCode s.cfg s.input) }))

/-- R226 (the spec's decisions D13, D25, D26): a handshake reply that is long enough replaces `SID` and `KEY` by
bytes of the plaintext, deciphered under the old key, sets `AUTH`, emits `READY`, and leaves everything else; one too short to hold both fields is
ignored with `W_HSLEN` and nothing replaced. -/
def Obligations.HandshakeReplyInstallsKeyAndSid : Prop :=
  ∀ s : State, commandByte s.cfg s.input = 0xe9#8 → s.ParseReady →
    (max 4 (s.cfg.hsKeyOff + 16) ≤ s.input.length - 56 → ∃ (sid : Bytes 4) (key : Bytes 16),
      (∀ j < 4, byteAt sid.toList j = byteAt s.plaintext j) ∧
      (∀ j < 16, byteAt key.toList j = byteAt s.plaintext (s.cfg.hsKeyOff + j)) ∧
      exec .parse s = .next (State.withOut
        { s with sid := sid, key := key, status := s.status ||| 0x02#8, ob := Memory.ofBytes s.plaintext,
                 dataReply := false }
        { res := .ok, verdict := some .ready, why := some .noReason, rcmd := some 0xe9#8,
          rerr := some (errorCode s.cfg s.input),
          events := errorEvents (errorCode s.cfg s.input) ++ [.ready] })) ∧
    (s.input.length - 56 < max 4 (s.cfg.hsKeyOff + 16) →
      exec .parse s = .next (State.withOut { s with ob := [], dataReply := false }
        { res := .ok, verdict := some .ignored, why := some .hsLen, rcmd := some 0xe9#8,
          rerr := some (errorCode s.cfg s.input), events := errorEvents (errorCode s.cfg s.input) }))

/-- R227: a data reply, 0xee or 0xef, leaves the plaintext in `OB`, emits `DATA` and changes no register. -/
def Obligations.DataReplyDeliversThePlaintext : Prop :=
  ∀ (s : State) (cmd : Byte), cmd = commandByte s.cfg s.input → cmd = 0xee#8 ∨ cmd = 0xef#8 →
    s.ParseReady → exec .parse s = .next (State.withOut { s with ob := Memory.ofBytes s.plaintext, dataReply := true }
      { res := .ok, verdict := some .data, why := some .noReason, rcmd := some cmd,
        rerr := some (errorCode s.cfg s.input),
        events := errorEvents (errorCode s.cfg s.input) ++ [.data] })

/-- R107, R228: any other command byte is reported, the plaintext is left in `OB`, and no register changes. -/
def Obligations.UnknownCommandIsReported : Prop :=
  ∀ (s : State) (cmd : Byte), cmd = commandByte s.cfg s.input →
    cmd ≠ 0xe9#8 → cmd ≠ 0xee#8 → cmd ≠ 0xef#8 →
    s.ParseReady → exec .parse s = .next (State.withOut { s with ob := Memory.ofBytes s.plaintext, dataReply := false }
      { res := .ok, verdict := some .unknown, why := some .noReason, rcmd := some cmd,
        rerr := some (errorCode s.cfg s.input),
        events := errorEvents (errorCode s.cfg s.input) ++ [.unknown cmd] })

/-- R101, R225: PARSE is, in every state, the response command row that the datagram's command byte decodes to: the
dispatch is exhaustive. -/
def Obligations.ParseRunsTheDecodedResponseRow : Prop :=
  ∀ s : State, exec .parse s = exec (decodeRsp (commandByte s.cfg s.input)) s

/-- The four response command rows as instructions of their own, which is the model's choice (log 12): each is PARSE of
the datagram with the row's command byte in its place, but leaves `IB` as it is; where the receive path goes through, the
plaintext is in `OB` and the verdict is the one R101 gives that byte. -/
def Obligations.ResponseRowsReceiveUnderTheirByte : Prop :=
  ∀ (s : State) (i : Instr) (cmd : Byte), s.cfg.WellFormed → i.wf = true → i.format = .rspcmd →
    receivedCommand s i = some cmd →
    (∃ t : State, exec .parse { s with ib := Memory.ofBytes (putByte s.input s.cfg.offRcmd cmd) } = .next t ∧
      exec i s = .next { t with ib := s.ib }) ∧
    (s.ParseReady → (cmd = 0xe9#8 → max 4 (s.cfg.hsKeyOff + 16) ≤ s.input.length - 56) →
      ∃ (t : State) (r : Result), exec i s = .next t ∧ t.output = s.plaintext ∧ t.out = some r ∧
        r.rcmd = some cmd ∧ r.verdict = some (verdictOf cmd))

/-- R305: the events of an operation are those its reported error code and verdict call for, in this order, and no
others; only PARSE emits any, at most two, and two only with `RX_STOP_ON_ERR` clear. -/
def Obligations.EventsFollowTheReport : Prop :=
  ∀ (i : Instr) (s t : State) (r : Result), i.format = .op → exec i s = .next t → t.out = some r →
    r.events = eventsOf r ∧ (i ≠ .parse → r.events = []) ∧ r.events.length ≤ 2 ∧
    (r.events.length = 2 → s.cfg.rxStopOnErr = false)

/-- R66, R188: after a PARSE with verdict `V_READY` the very next FRAME enciphers under the key, and carries the session
id, that the deciphered payload held. -/
def Obligations.KeySwitchIsVisibleAtOnce : Prop :=
  ∀ (s t : State) (r : Result) (b : List Byte), s.cfg.WellFormed → exec .parse s = .next t → t.out = some r →
    r.verdict = some .ready → Aligned b → 56 + b.length ≤ s.cfg.maxDgram → ∃ u : State,
    exec .frame { t with ib := Memory.ofBytes b } = .next u ∧
    u.output.drop 56 =
      cbcEnc (toBytes 16 (slice t.output s.cfg.hsKeyOff (s.cfg.hsKeyOff + 16))) s.iv b ∧
    ∀ j < 4, byteAt u.output (s.cfg.offSid + j) = byteAt t.output j

/-- R230: in a configuration where the response command byte stands where FRAME puts it and the error code overlaps no
field and is zero in the template, a framed packet fed back to PARSE gives the payload, error code 0, the command byte
and its verdict. -/
def Obligations.LoopBackReturnsThePayload : Prop :=
  ∀ s : State, s.cfg.WellFormed → s.FrameReady → s.cfg.offRcmd = s.cfg.offCmd →
    (∀ f ∈ s.cfg.cmdFields, Disjoint2 (s.cfg.offRerr, s.cfg.rerrLen) f) →
    (∀ j < s.cfg.rerrLen, byteAt s.cfg.hdrTemplate.toList (s.cfg.offRerr + j) = 0) →
    (s.ports.cmd = 0xe9#8 → max 4 (s.cfg.hsKeyOff + 16) ≤ s.input.length) →
    ∃ (t u : State) (r : Result), exec .frame s = .next t ∧ exec .parse { t with ib := t.ob } = .next u ∧
      u.output = s.input ∧ u.out = some r ∧ r.rerr = some 0 ∧ r.rcmd = some s.ports.cmd ∧
      r.verdict = some (verdictOf s.ports.cmd)

/-- R245: HELLO reports the identity read through the map and the device-type id when every mapped offset is in `IB`,
and `V_IGNORED` with `W_SHORT` when one is not; it changes nothing else. -/
def Obligations.HelloExtractsIdentityAndType : Prop :=
  ∀ s : State,
    ((∀ j : Fin 6, s.cfg.helloIdentMap.get j + 1 ≤ s.input.length) ∧
        s.cfg.helloOffDevtype + 2 ≤ s.input.length →
      ∃ ident : Bytes 6, (∀ j : Fin 6, ident.get j = byteAt s.input (s.cfg.helloIdentMap.get j)) ∧
        exec .hello s = .next (s.withOut
          { res := .ok, verdict := some .hello, why := some .noReason, oident := some ident,
            val16 := some (le16 s.input s.cfg.helloOffDevtype) })) ∧
    (¬ ((∀ j : Fin 6, s.cfg.helloIdentMap.get j + 1 ≤ s.input.length) ∧
        s.cfg.helloOffDevtype + 2 ≤ s.input.length) →
      exec .hello s = .next (s.withOut { res := .ok, verdict := some .ignored, why := some .short }))

/-! ### Payloads, replies and pseudo-operations -/

/-- R261, R263, R265 to R271: the seven PAY16 rows put the code and 15 zero bytes in `IB` and change nothing else, and
the checksum of that payload is the seed plus the code. That a row of this kind fills `IB` is the model's choice
(log 13). -/
def Obligations.PayTemplatesFillIb : Prop :=
  ∀ (s : State) (i : Instr) (code : Byte), s.cfg.WellFormed → (i, code) ∈ payRows → ∃ payload : List Byte,
    exec i s = .next { s with ib := Memory.ofBytes payload } ∧
    payload.length = 16 ∧ byteAt payload 0 = code ∧ (∀ j, 0 < j → byteAt payload j = 0) ∧
    (csum payload).toNat = 0xBEAF + code.toNat

/-- R264: PAY.SENDCODE puts the prefix, 0x02 and zeros, before the learned code in `IB`, as long as the buffer holds
the result. That the row acts on `IB`, and stops otherwise, is the model's choice (logs 13, 16). -/
def Obligations.SendcodePrefixesTheCode : Prop :=
  ∀ s : State, s.cfg.WellFormed →
    (s.cfg.sendcodePrefixLen + s.input.length ≤ s.cfg.maxDgram → ∃ payload : List Byte,
      exec .paySendcode s = .next { s with ib := Memory.ofBytes payload } ∧
      payload.length = s.cfg.sendcodePrefixLen + s.input.length ∧
      byteAt payload 0 = 0x02#8 ∧ (∀ j, 0 < j → j < s.cfg.sendcodePrefixLen → byteAt payload j = 0) ∧
      payload.drop s.cfg.sendcodePrefixLen = s.input) ∧
    (s.cfg.maxDgram < s.cfg.sendcodePrefixLen + s.input.length →
      exec .paySendcode s = .refused .inputTooLong)

/-- R113, R260, R261: each SEND row of a template fills `IB` with the template and frames it under 0x6a in an open session;
the packet's payload checksum is the seed plus the code. Without a session FRAME's refusal `E_STATE` is the result, and
only `IB` and the ports are as the host drove them; a template is never unaligned and never too long (R261, R8). -/
def Obligations.SendRowsFrameTheirTemplate : Prop :=
  ∀ (s d : State) (i : Instr) (code : Byte), s.cfg.WellFormed → (i, code) ∈ sendRows →
    d = { s with
          ib := Memory.ofBytes (code :: zeros 15), ports := { s.ports with op := 0x21#8, cmd := 0x6a#8 } } →
    (s.opened = true → ∃ p : List Byte,
      exec i s = .next
        { d with seq := s.seq + 1, ob := Memory.ofBytes p, dataReply := false, out := some { res := .ok } } ∧
      IsCommandPacket s.cfg 0x6a#8 (s.seq + 1) s.ident s.sid s.key s.iv (code :: zeros 15) p ∧
      (le16 p s.cfg.offPaycs).toNat = 0xBEAF + code.toNat) ∧
    (s.opened = false → exec i s = .next { d with out := some { res := .eState } })

/-- R113: VFYPKT and VFYDISC check the field at `OFF_PKTCS` and at `DISC_OFF_CS` of the packet in `IB`, and are
refused with `E_RANGE` where it does not lie inside. -/
def Obligations.VerifyRowsCheckTheirField : Prop :=
  ∀ (s : State) (i : Instr) (off : Nat),
    (i = .vfypkt ∧ off = s.cfg.offPktcs) ∨ (i = .vfydisc ∧ off = s.cfg.discOffCs) →
    (off + 2 ≤ s.input.length → ∃ v : Half,
      v.toNat = (0xBEAF + sumBytes (zero16 s.input off)) % 65536 ∧
      exec i s = .next (State.withOut { s with ports := { s.ports with op := 0x02#8, off := off } }
        { res := .ok, val16 := some v, okFlag := some (decide (v = le16 s.input off)) })) ∧
    (s.input.length < off + 2 →
      exec i s = .next (State.withOut { s with ports := { s.ports with op := 0x02#8, off := off } }
        { res := .eRange }))

/-- R274 to R279: what the host derives from the plaintext in `OB`; a payload too short for its decoding yields no
notification, nor does an empty one, an unrecognised parameter id none. The offset of the sweep byte, the contents of the
RF-data notification and the length its decoding needs are free values (logs 9, 10); that a row performed by its name
looks at neither the first byte nor where `OB` came from is the model's choice (log 24). Nothing but the notification
changes. -/
def Obligations.ReplyRowsDeriveNotifications : Prop :=
  ∀ (s : State) (param : Byte),
    (6 ≤ s.output.length → exec .replyTemp s = .next
      { s with
        note := some (.temperature ((byteAt s.output 4).toNat * 10 + (byteAt s.output 5).toNat)) }) ∧
    (s.output.length < 6 → exec .replyTemp s = .next { s with note := none }) ∧
    (4 ≤ s.output.length → exec .replyCode s = .next { s with note := some (.rawData (s.output.drop 4)) }) ∧
    (s.output.length < 4 → exec .replyCode s = .next { s with note := none }) ∧
    (Config.sweepOffset < s.output.length → exec .replySweep s = .next
      { s with
        note := some (.sweepResult (decide (byteAt s.output Config.sweepOffset = 1))) }) ∧
    (s.output.length ≤ Config.sweepOffset → exec .replySweep s = .next { s with note := none }) ∧
    (s.output ≠ [] → Config.rfDataNeed ≤ s.output.length → exec .replyRfdata s = .next
      { s with note := some (.rfData (Config.rfDataBytes s.output)) }) ∧
    (s.output = [] ∨ s.output.length < Config.rfDataNeed → exec .replyRfdata s = .next { s with note := none }) ∧
    exec (.replyOther param) s = .next { s with note := none }

/-! ### Rules of the whole machine -/

/-- R106 (the spec's decision D3): every operation number outside the nine is reserved, and is refused with `E_OP`
with nothing changed but the result. -/
def Obligations.ReservedNumbersAreRefused : Prop :=
  ∀ b : Byte, b ∉ definedOps → decodeOp b = .opReserved b ∧
    ∀ s : State, exec (.opReserved b) s = .next { s with out := some { res := .eOp } }

/-- R20, R23, R24, R30, R289: what each row leaves unchanged, among the model's own fields whether `OB` holds a data reply. `IB`, `OB` unchanged means every byte of the buffer reads
as before. The exact effect of a row on what it does write is stated by that row's own statement. -/
def Obligations.RowsChangeOnlyTheirState : Prop :=
  ∀ (i : Instr) (s t : State), exec i s = .next t →
    t.cfg = s.cfg ∧ t.queue = s.queue ∧
    (i ≠ .openOp → t.iv = s.iv ∧ t.ident = s.ident) ∧
    (i ∉ [Instr.openOp, .parse, .rspHs] → t.key = s.key ∧ t.sid = s.sid ∧ t.status = s.status) ∧
    (i ∉ [Instr.openOp, .frame, .cmdOut, .sendCode] → i ∉ sendRows.map Prod.fst → t.seq = s.seq) ∧
    (i ≠ .paySendcode → i ∉ payRows.map Prod.fst → i ∉ sendRows.map Prod.fst →
      ∀ a, t.ib.read a = s.ib.read a) ∧
    (i ∈ [Instr.csum, .csumvfy, .openOp, .hello, .paySendcode, .vfypkt, .vfydisc] ∨ i.format = .reply ∨
        i ∈ payRows.map Prod.fst ∨ (∃ b, i = .opReserved b) →
      t.dataReply = s.dataReply ∧ ∀ a, t.ob.read a = s.ob.read a) ∧
    (i.format ≠ .pseudo → i ≠ .cmdOut → t.ports = s.ports) ∧
    (i.format = .pay16 ∨ i.format = .paycode ∨ i.format = .reply → t.out = s.out) ∧
    (i.format ≠ .reply → t.note = s.note)

/-- R300: an operation of the block whose result is a refusal leaves the state as it was, but for the result, and
reports nothing else. -/
def Obligations.RefusalChangesNothing : Prop :=
  ∀ (i : Instr) (s t : State) (r : Result), i.format = .op → exec i s = .next t → t.out = some r →
    r.res ≠ .ok → t = { s with out := some { res := r.res } }

/-- R285, spec/93_implementation_defined.md part 1: under a well-formed configuration no row stops the machine, except
the host's attempt to put a send-code payload longer than `MAX_DGRAM` in `IB`. -/
def Obligations.NoRowStopsTheMachine : Prop :=
  ∀ (i : Instr) (s : State), s.cfg.WellFormed →
    (∃ t : State, exec i s = .next t) ∨
    (i = .paySendcode ∧ s.cfg.maxDgram < s.cfg.sendcodePrefixLen + s.input.length ∧
      exec i s = .refused .inputTooLong)

/-- R26: before OPEN nothing depends on `SEQ` or `IDENT`: whatever they hold, every row does the same, and leaves them as
they are, but for OPEN, which loads them. -/
def Obligations.SeqAndIdentUnreadBeforeOpen : Prop :=
  ∀ (i : Instr) (s : State) (v : Half) (w : Bytes 6), s.opened = false →
    exec i { s with seq := v, ident := w } =
      mapNext (fun t => if i = .openOp then t else { t with seq := v, ident := w }) (exec i s)

/-- R314: `AUTH` gates nothing: two states that differ in `STATUS` but not in `OPENED` do the same under every row, up
to `STATUS` itself. -/
def Obligations.AuthGatesNothing : Prop :=
  ∀ (i : Instr) (s : State) (b : Byte), b.getLsbD 0 = s.status.getLsbD 0 →
    mapNext (fun t => { t with status := 0 }) (exec i { s with status := b }) =
      mapNext (fun t => { t with status := 0 }) (exec i s)
end

