-- ==== Sys2Proof/Laws/Ops.lean ====
section
/-! SUPPORT. What the byte-sequence and buffer operations do: lengths, reads after writes, and that every write of a
buffer leaves it in canonical form. -/

namespace Sys2Proof.Machine

/-! ### Byte sequences -/

@[simp] theorem length_putByte (b : List Byte) (o : Nat) (v : Byte) : (putByte b o v).length = b.length := by
  simp [putByte]

@[simp] theorem length_putBytes (vs : List Byte) : ∀ (b : List Byte) (o : Nat), (putBytes b o vs).length = b.length := by
  induction vs with
  | nil => intro b o; rfl
  | cons v vs ih => intro b o; simp [putBytes, ih]

@[simp] theorem length_put16le (b : List Byte) (o : Nat) (v : Half) : (put16le b o v).length = b.length := by
  simp [put16le]

@[simp] theorem length_zero16 (b : List Byte) (o : Nat) : (zero16 b o).length = b.length := by
  simp [zero16]

@[simp] theorem length_zeros (n : Nat) : (zeros n).length = n := by simp [zeros]

theorem length_slice (b : List Byte) (lo hi : Nat) (h : hi ≤ b.length) : (slice b lo hi).length = hi - lo := by
  simp [slice]; omega

/-- Read after write to the same offset. -/
@[simp] theorem byteAt_putByte_self (b : List Byte) (o : Nat) (v : Byte) (h : o < b.length) :
    byteAt (putByte b o v) o = v := by
  simp [byteAt, putByte, h]

/-- A write leaves every other offset alone. -/
theorem byteAt_putByte_ne (b : List Byte) (o a : Nat) (v : Byte) (h : a ≠ o) :
    byteAt (putByte b o v) a = byteAt b a := by
  simp [byteAt, putByte, Ne.symm h]

theorem byteAt_putBytes_outside (vs : List Byte) : ∀ (b : List Byte) (o a : Nat), ¬ InRange a o vs.length →
    byteAt (putBytes b o vs) a = byteAt b a := by
  induction vs with
  | nil => intro b o a _; rfl
  | cons v vs ih =>
    intro b o a h
    simp only [InRange, List.length_cons] at h
    rw [putBytes, ih _ _ _ (by simp only [InRange]; omega), byteAt_putByte_ne _ _ _ _ (by omega)]

theorem byteAt_putBytes_inside (vs : List Byte) : ∀ (b : List Byte) (o i : Nat), o + vs.length ≤ b.length →
    i < vs.length → byteAt (putBytes b o vs) (o + i) = byteAt vs i := by
  induction vs with
  | nil => intro b o i _ h; simp at h
  | cons v vs ih =>
    intro b o i hb hi
    simp only [List.length_cons] at hb hi
    rw [putBytes]
    cases i with
    | zero =>
      rw [byteAt_putBytes_outside _ _ _ _ (by simp only [InRange]; omega)]
      exact byteAt_putByte_self b o v (by omega)
    | succ j =>
      rw [show o + (j + 1) = o + 1 + j by omega, ih _ _ _ (by simp; omega) (by omega)]
      simp [byteAt]

theorem byteAt_put16le_outside (b : List Byte) (o a : Nat) (v : Half) (h : ¬ InRange a o 2) :
    byteAt (put16le b o v) a = byteAt b a := by
  simp only [InRange] at h
  rw [put16le, byteAt_putByte_ne _ _ _ _ (by omega), byteAt_putByte_ne _ _ _ _ (by omega)]

theorem byteAt_zero16_outside (b : List Byte) (o a : Nat) (h : ¬ InRange a o 2) :
    byteAt (zero16 b o) a = byteAt b a := by
  simp only [InRange] at h
  rw [zero16, byteAt_putByte_ne _ _ _ _ (by omega), byteAt_putByte_ne _ _ _ _ (by omega)]

/-- The two bytes of a 16-bit field, low byte first, make the value up again. -/
theorem half_of_bytes (v : Half) :
    (v.setWidth 8 : Byte).setWidth 16 + 256 * ((v >>> 8).setWidth 8 : Byte).setWidth 16 = v := by
  apply BitVec.eq_of_toNat_eq
  simp [BitVec.toNat_add, BitVec.toNat_mul, Nat.shiftRight_eq_div_pow]
  omega

/-- R14: what `put16le` stores, `le16` reads. -/
@[simp] theorem le16_put16le (b : List Byte) (o : Nat) (v : Half) (h : o + 2 ≤ b.length) :
    le16 (put16le b o v) o = v := by
  have h0 : byteAt (put16le b o v) o = v.setWidth 8 := by
    rw [put16le, byteAt_putByte_ne _ _ _ _ (by omega), byteAt_putByte_self _ _ _ (by omega)]
  have h1 : byteAt (put16le b o v) (o + 1) = (v >>> 8).setWidth 8 := by
    rw [put16le, byteAt_putByte_self _ _ _ (by simp; omega)]
  rw [le16, h0, h1]
  exact half_of_bytes v

/-- Writing a field and then zeroing it is zeroing it. -/
theorem zero16_put16le (b : List Byte) (o : Nat) (v : Half) : zero16 (put16le b o v) o = zero16 b o := by
  apply List.ext_getElem?
  intro i
  simp only [zero16, put16le, putByte, List.getElem?_set, List.length_set]
  split_ifs <;> simp_all

theorem toList_toBytes (n : Nat) (b : List Byte) (h : b.length = n) : (toBytes n b).toList = b := by
  subst h
  apply List.ext_getElem
  · simp [toBytes]
  · intro i h1 h2
    simp [toBytes, byteAt]

@[simp] theorem toBytes_toList {n : Nat} (v : Bytes n) : toBytes n v.toList = v := by
  ext i hi
  simp [toBytes, byteAt]

theorem byteAt_eq_getElem (b : List Byte) (o : Nat) (h : o < b.length) : byteAt b o = b[o] := by
  simp [byteAt, h]

/-! ### Buffers -/

@[simp] theorem bytes_ofBytes (b : List Byte) : (Memory.ofBytes b).bytes = b := by
  simp [Memory.ofBytes, Memory.bytes, Function.comp_def]

@[simp] theorem bytes_nil : Memory.bytes [] = [] := rfl

@[simp] theorem len_ofBytes (b : List Byte) : (Memory.ofBytes b).len = b.length := by
  simp [Memory.ofBytes, Memory.len]

@[simp] theorem length_bytes (m : Memory) : m.bytes.length = m.len := by
  simp [Memory.bytes, Memory.len]

/-- Every write of a buffer leaves it in canonical form. -/
@[simp] theorem wf_ofBytes (b : List Byte) : (Memory.ofBytes b).wf = true := by
  simp [Memory.ofBytes, Memory.wf, Function.comp_def, List.range_eq_range']

/-- A buffer in canonical form is given by its bytes, so equal buffers are equal data. -/
theorem ofBytes_bytes (m : Memory) (h : m.wf = true) : Memory.ofBytes m.bytes = m := by
  have hf : m.map Prod.fst = List.range m.length := by simpa [Memory.wf] using h
  apply List.ext_getElem
  · simp [Memory.ofBytes, Memory.bytes]
  · intro i h1 h2
    have hi : (m.map Prod.fst)[i]'(by simpa using h2) = i := by simp [hf]
    simp only [List.getElem_map] at hi
    apply Prod.ext <;> simp [Memory.ofBytes, Memory.bytes, hi]

theorem lookup_zipIdx (b : List Byte) : ∀ (k a : Nat),
    ((b.zipIdx k).map Prod.swap).lookup a = if a < k then none else b[a - k]? := by
  induction b with
  | nil => intro k a; simp
  | cons x xs ih =>
    intro k a
    simp only [List.zipIdx_cons, List.map_cons, Prod.swap_prod_mk, List.lookup_cons, ih]
    rcases Nat.lt_trichotomy a k with h | h | h
    · simp [h, show a < k + 1 by omega, beq_eq_false_iff_ne.mpr (show a ≠ k by omega)]
    · subst h; simp
    · have : a - k = (a - (k + 1)) + 1 := by omega
      simp [beq_eq_false_iff_ne.mpr (show a ≠ k by omega), show ¬ a < k + 1 by omega, show ¬ a < k by omega, this]

/-- R15, R30: a buffer holds exactly the bytes of the sequence, at their offsets, and none past its length. -/
@[simp] theorem read_ofBytes (b : List Byte) (a : Nat) : (Memory.ofBytes b).read a = b[a]? := by
  simp [Memory.ofBytes, Memory.read, lookup_zipIdx]

theorem wf_nil : Memory.wf [] = true := rfl

end Sys2Proof.Machine
end

