-- ==== Sys2Proof/Laws/State.lean ====
section
/-! SUPPORT. One lemma per field per update of State, each true by rfl, so that no proof unfolds a record update. -/

namespace Sys2Proof.Machine

@[simp] theorem finish_cfg (s : State) (r : Result) : (finish s r).cfg = s.cfg := rfl
@[simp] theorem finish_key (s : State) (r : Result) : (finish s r).key = s.key := rfl
@[simp] theorem finish_iv (s : State) (r : Result) : (finish s r).iv = s.iv := rfl
@[simp] theorem finish_sid (s : State) (r : Result) : (finish s r).sid = s.sid := rfl
@[simp] theorem finish_seq (s : State) (r : Result) : (finish s r).seq = s.seq := rfl
@[simp] theorem finish_ident (s : State) (r : Result) : (finish s r).ident = s.ident := rfl
@[simp] theorem finish_status (s : State) (r : Result) : (finish s r).status = s.status := rfl
@[simp] theorem finish_ib (s : State) (r : Result) : (finish s r).ib = s.ib := rfl
@[simp] theorem finish_ob (s : State) (r : Result) : (finish s r).ob = s.ob := rfl
@[simp] theorem finish_ports (s : State) (r : Result) : (finish s r).ports = s.ports := rfl
@[simp] theorem finish_out (s : State) (r : Result) : (finish s r).out = some r := rfl
@[simp] theorem finish_dataReply (s : State) (r : Result) : (finish s r).dataReply = s.dataReply := rfl
@[simp] theorem finish_queue (s : State) (r : Result) : (finish s r).queue = s.queue := rfl
@[simp] theorem finish_note (s : State) (r : Result) : (finish s r).note = s.note := rfl

@[simp] theorem finishOb_cfg (s : State) (b : List Byte) (r : Result) : (finishOb s b r).cfg = s.cfg := rfl
@[simp] theorem finishOb_key (s : State) (b : List Byte) (r : Result) : (finishOb s b r).key = s.key := rfl
@[simp] theorem finishOb_iv (s : State) (b : List Byte) (r : Result) : (finishOb s b r).iv = s.iv := rfl
@[simp] theorem finishOb_sid (s : State) (b : List Byte) (r : Result) : (finishOb s b r).sid = s.sid := rfl
@[simp] theorem finishOb_seq (s : State) (b : List Byte) (r : Result) : (finishOb s b r).seq = s.seq := rfl
@[simp] theorem finishOb_ident (s : State) (b : List Byte) (r : Result) : (finishOb s b r).ident = s.ident := rfl
@[simp] theorem finishOb_status (s : State) (b : List Byte) (r : Result) : (finishOb s b r).status = s.status := rfl
@[simp] theorem finishOb_ib (s : State) (b : List Byte) (r : Result) : (finishOb s b r).ib = s.ib := rfl
@[simp] theorem finishOb_ob (s : State) (b : List Byte) (r : Result) : (finishOb s b r).ob = Memory.ofBytes b := rfl
@[simp] theorem finishOb_ports (s : State) (b : List Byte) (r : Result) : (finishOb s b r).ports = s.ports := rfl
@[simp] theorem finishOb_out (s : State) (b : List Byte) (r : Result) : (finishOb s b r).out = some r := rfl
@[simp] theorem finishOb_dataReply (s : State) (b : List Byte) (r : Result) : (finishOb s b r).dataReply = decide (r.verdict = some .data) := rfl
@[simp] theorem finishOb_queue (s : State) (b : List Byte) (r : Result) : (finishOb s b r).queue = s.queue := rfl
@[simp] theorem finishOb_note (s : State) (b : List Byte) (r : Result) : (finishOb s b r).note = s.note := rfl

@[simp] theorem refuse_cfg (s : State) (c : ResCode) : (refuse s c).cfg = s.cfg := rfl
@[simp] theorem refuse_key (s : State) (c : ResCode) : (refuse s c).key = s.key := rfl
@[simp] theorem refuse_iv (s : State) (c : ResCode) : (refuse s c).iv = s.iv := rfl
@[simp] theorem refuse_sid (s : State) (c : ResCode) : (refuse s c).sid = s.sid := rfl
@[simp] theorem refuse_seq (s : State) (c : ResCode) : (refuse s c).seq = s.seq := rfl
@[simp] theorem refuse_ident (s : State) (c : ResCode) : (refuse s c).ident = s.ident := rfl
@[simp] theorem refuse_status (s : State) (c : ResCode) : (refuse s c).status = s.status := rfl
@[simp] theorem refuse_ib (s : State) (c : ResCode) : (refuse s c).ib = s.ib := rfl
@[simp] theorem refuse_ob (s : State) (c : ResCode) : (refuse s c).ob = s.ob := rfl
@[simp] theorem refuse_ports (s : State) (c : ResCode) : (refuse s c).ports = s.ports := rfl
@[simp] theorem refuse_out (s : State) (c : ResCode) : (refuse s c).out = some { res := c } := rfl
@[simp] theorem refuse_dataReply (s : State) (c : ResCode) : (refuse s c).dataReply = s.dataReply := rfl
@[simp] theorem refuse_queue (s : State) (c : ResCode) : (refuse s c).queue = s.queue := rfl
@[simp] theorem refuse_note (s : State) (c : ResCode) : (refuse s c).note = s.note := rfl

@[simp] theorem setNote_cfg (s : State) (n : Option Notification) : (setNote s n).cfg = s.cfg := rfl
@[simp] theorem setNote_key (s : State) (n : Option Notification) : (setNote s n).key = s.key := rfl
@[simp] theorem setNote_iv (s : State) (n : Option Notification) : (setNote s n).iv = s.iv := rfl
@[simp] theorem setNote_sid (s : State) (n : Option Notification) : (setNote s n).sid = s.sid := rfl
@[simp] theorem setNote_seq (s : State) (n : Option Notification) : (setNote s n).seq = s.seq := rfl
@[simp] theorem setNote_ident (s : State) (n : Option Notification) : (setNote s n).ident = s.ident := rfl
@[simp] theorem setNote_status (s : State) (n : Option Notification) : (setNote s n).status = s.status := rfl
@[simp] theorem setNote_ib (s : State) (n : Option Notification) : (setNote s n).ib = s.ib := rfl
@[simp] theorem setNote_ob (s : State) (n : Option Notification) : (setNote s n).ob = s.ob := rfl
@[simp] theorem setNote_ports (s : State) (n : Option Notification) : (setNote s n).ports = s.ports := rfl
@[simp] theorem setNote_out (s : State) (n : Option Notification) : (setNote s n).out = s.out := rfl
@[simp] theorem setNote_dataReply (s : State) (n : Option Notification) : (setNote s n).dataReply = s.dataReply := rfl
@[simp] theorem setNote_queue (s : State) (n : Option Notification) : (setNote s n).queue = s.queue := rfl
@[simp] theorem setNote_note (s : State) (n : Option Notification) : (setNote s n).note = n := rfl

@[simp] theorem withQueue_cfg (s : State) (q : List HostAction) : (s.withQueue q).cfg = s.cfg := rfl
@[simp] theorem withQueue_key (s : State) (q : List HostAction) : (s.withQueue q).key = s.key := rfl
@[simp] theorem withQueue_iv (s : State) (q : List HostAction) : (s.withQueue q).iv = s.iv := rfl
@[simp] theorem withQueue_sid (s : State) (q : List HostAction) : (s.withQueue q).sid = s.sid := rfl
@[simp] theorem withQueue_seq (s : State) (q : List HostAction) : (s.withQueue q).seq = s.seq := rfl
@[simp] theorem withQueue_ident (s : State) (q : List HostAction) : (s.withQueue q).ident = s.ident := rfl
@[simp] theorem withQueue_status (s : State) (q : List HostAction) : (s.withQueue q).status = s.status := rfl
@[simp] theorem withQueue_ib (s : State) (q : List HostAction) : (s.withQueue q).ib = s.ib := rfl
@[simp] theorem withQueue_ob (s : State) (q : List HostAction) : (s.withQueue q).ob = s.ob := rfl
@[simp] theorem withQueue_ports (s : State) (q : List HostAction) : (s.withQueue q).ports = s.ports := rfl
@[simp] theorem withQueue_out (s : State) (q : List HostAction) : (s.withQueue q).out = s.out := rfl
@[simp] theorem withQueue_dataReply (s : State) (q : List HostAction) : (s.withQueue q).dataReply = s.dataReply := rfl
@[simp] theorem withQueue_queue (s : State) (q : List HostAction) : (s.withQueue q).queue = q := rfl
@[simp] theorem withQueue_note (s : State) (q : List HostAction) : (s.withQueue q).note = s.note := rfl

@[simp] theorem withPorts_cfg (s : State) (p : Ports) : (s.withPorts p).cfg = s.cfg := rfl
@[simp] theorem withPorts_key (s : State) (p : Ports) : (s.withPorts p).key = s.key := rfl
@[simp] theorem withPorts_iv (s : State) (p : Ports) : (s.withPorts p).iv = s.iv := rfl
@[simp] theorem withPorts_sid (s : State) (p : Ports) : (s.withPorts p).sid = s.sid := rfl
@[simp] theorem withPorts_seq (s : State) (p : Ports) : (s.withPorts p).seq = s.seq := rfl
@[simp] theorem withPorts_ident (s : State) (p : Ports) : (s.withPorts p).ident = s.ident := rfl
@[simp] theorem withPorts_status (s : State) (p : Ports) : (s.withPorts p).status = s.status := rfl
@[simp] theorem withPorts_ib (s : State) (p : Ports) : (s.withPorts p).ib = s.ib := rfl
@[simp] theorem withPorts_ob (s : State) (p : Ports) : (s.withPorts p).ob = s.ob := rfl
@[simp] theorem withPorts_ports (s : State) (p : Ports) : (s.withPorts p).ports = p := rfl
@[simp] theorem withPorts_out (s : State) (p : Ports) : (s.withPorts p).out = s.out := rfl
@[simp] theorem withPorts_dataReply (s : State) (p : Ports) : (s.withPorts p).dataReply = s.dataReply := rfl
@[simp] theorem withPorts_queue (s : State) (p : Ports) : (s.withPorts p).queue = s.queue := rfl
@[simp] theorem withPorts_note (s : State) (p : Ports) : (s.withPorts p).note = s.note := rfl

@[simp] theorem driveFrame_cfg (c : Byte) (s : State) : (driveFrame c s).cfg = s.cfg := rfl
@[simp] theorem driveFrame_key (c : Byte) (s : State) : (driveFrame c s).key = s.key := rfl
@[simp] theorem driveFrame_iv (c : Byte) (s : State) : (driveFrame c s).iv = s.iv := rfl
@[simp] theorem driveFrame_sid (c : Byte) (s : State) : (driveFrame c s).sid = s.sid := rfl
@[simp] theorem driveFrame_seq (c : Byte) (s : State) : (driveFrame c s).seq = s.seq := rfl
@[simp] theorem driveFrame_ident (c : Byte) (s : State) : (driveFrame c s).ident = s.ident := rfl
@[simp] theorem driveFrame_status (c : Byte) (s : State) : (driveFrame c s).status = s.status := rfl
@[simp] theorem driveFrame_ib (c : Byte) (s : State) : (driveFrame c s).ib = s.ib := rfl
@[simp] theorem driveFrame_ob (c : Byte) (s : State) : (driveFrame c s).ob = s.ob := rfl
@[simp] theorem driveFrame_ports (c : Byte) (s : State) : (driveFrame c s).ports = { s.ports with op := 0x21#8, cmd := c } := rfl
@[simp] theorem driveFrame_out (c : Byte) (s : State) : (driveFrame c s).out = s.out := rfl
@[simp] theorem driveFrame_dataReply (c : Byte) (s : State) : (driveFrame c s).dataReply = s.dataReply := rfl
@[simp] theorem driveFrame_queue (c : Byte) (s : State) : (driveFrame c s).queue = s.queue := rfl
@[simp] theorem driveFrame_note (c : Byte) (s : State) : (driveFrame c s).note = s.note := rfl

@[simp] theorem driveCsumvfy_cfg (o : Nat) (s : State) : (driveCsumvfy o s).cfg = s.cfg := rfl
@[simp] theorem driveCsumvfy_key (o : Nat) (s : State) : (driveCsumvfy o s).key = s.key := rfl
@[simp] theorem driveCsumvfy_iv (o : Nat) (s : State) : (driveCsumvfy o s).iv = s.iv := rfl
@[simp] theorem driveCsumvfy_sid (o : Nat) (s : State) : (driveCsumvfy o s).sid = s.sid := rfl
@[simp] theorem driveCsumvfy_seq (o : Nat) (s : State) : (driveCsumvfy o s).seq = s.seq := rfl
@[simp] theorem driveCsumvfy_ident (o : Nat) (s : State) : (driveCsumvfy o s).ident = s.ident := rfl
@[simp] theorem driveCsumvfy_status (o : Nat) (s : State) : (driveCsumvfy o s).status = s.status := rfl
@[simp] theorem driveCsumvfy_ib (o : Nat) (s : State) : (driveCsumvfy o s).ib = s.ib := rfl
@[simp] theorem driveCsumvfy_ob (o : Nat) (s : State) : (driveCsumvfy o s).ob = s.ob := rfl
@[simp] theorem driveCsumvfy_ports (o : Nat) (s : State) : (driveCsumvfy o s).ports = { s.ports with op := 0x02#8, off := o } := rfl
@[simp] theorem driveCsumvfy_out (o : Nat) (s : State) : (driveCsumvfy o s).out = s.out := rfl
@[simp] theorem driveCsumvfy_dataReply (o : Nat) (s : State) : (driveCsumvfy o s).dataReply = s.dataReply := rfl
@[simp] theorem driveCsumvfy_queue (o : Nat) (s : State) : (driveCsumvfy o s).queue = s.queue := rfl
@[simp] theorem driveCsumvfy_note (o : Nat) (s : State) : (driveCsumvfy o s).note = s.note := rfl

@[simp] theorem hostReset_cfg (s : State) : (hostReset s).cfg = s.cfg := rfl
@[simp] theorem hostReset_key (s : State) : (hostReset s).key = s.cfg.key0 := rfl
@[simp] theorem hostReset_iv (s : State) : (hostReset s).iv = s.cfg.iv0 := rfl
@[simp] theorem hostReset_sid (s : State) : (hostReset s).sid = s.cfg.sid0 := rfl
@[simp] theorem hostReset_seq (s : State) : (hostReset s).seq = 0 := rfl
@[simp] theorem hostReset_ident (s : State) : (hostReset s).ident = zeroBytes 6 := rfl
@[simp] theorem hostReset_status (s : State) : (hostReset s).status = 0x00#8 := rfl
@[simp] theorem hostReset_ib (s : State) : (hostReset s).ib = [] := rfl
@[simp] theorem hostReset_ob (s : State) : (hostReset s).ob = [] := rfl
@[simp] theorem hostReset_ports (s : State) : (hostReset s).ports = s.ports := rfl
@[simp] theorem hostReset_out (s : State) : (hostReset s).out = none := rfl
@[simp] theorem hostReset_dataReply (s : State) : (hostReset s).dataReply = false := rfl
@[simp] theorem hostReset_queue (s : State) : (hostReset s).queue = s.queue := rfl
@[simp] theorem hostReset_note (s : State) : (hostReset s).note = s.note := rfl

@[simp] theorem resetWith_cfg (c : Cfg) : (State.resetWith c).cfg = c := rfl
@[simp] theorem reset_cfg : State.reset.cfg = Cfg.reference := rfl

end Sys2Proof.Machine
end

