-- ==== Sys2Proof/Laws/Operations.lean ====
section
/-! SUPPORT. For each shared operation, everything it can do, said once: proofs about rows and steps cite these
inversions instead of unfolding the operation. -/

namespace Sys2Proof.Machine

theorem hostFill_cases (b : List Byte) (s : State) :
    (b.length ≤ s.cfg.maxDgram ∧ hostFill b s = .next { s with ib := Memory.ofBytes b }) ∨
    (s.cfg.maxDgram < b.length ∧ hostFill b s = .refused .inputTooLong) := by
  unfold hostFill
  split
  · exact .inl ⟨‹_›, rfl⟩
  · exact .inr ⟨by omega, rfl⟩

theorem openSession_cases (s : State) :
    (s.opened = true ∧ openSession s = refuse s .eState) ∨
    (s.opened = false ∧ openSession s =
      { s with ident := s.ports.ident, key := s.cfg.key0, iv := s.cfg.iv0, sid := s.cfg.sid0,
               seq := s.ports.seq0, status := statusOpened, out := some { res := .ok } }) := by
  unfold openSession
  split
  · exact .inl ⟨‹_›, rfl⟩
  · exact .inr ⟨by simp_all, rfl⟩

theorem csumvfyOp_cases (s : State) :
    (s.input.length < s.ports.off + 2 ∧ csumvfyOp s = refuse s .eRange) ∨
    (s.ports.off + 2 ≤ s.input.length ∧ csumvfyOp s = s.withOut
      { res := .ok, val16 := some (csumZeroed s.input s.ports.off),
        okFlag := some (csumZeroed s.input s.ports.off == le16 s.input s.ports.off) }) := by
  simp only [csumvfyOp]
  split
  · exact .inl ⟨by omega, rfl⟩
  · exact .inr ⟨by omega, rfl⟩

theorem cbcencOp_cases (s : State) :
    (¬ Aligned s.input ∧ cbcencOp s = refuse s .eAlign) ∨
    (Aligned s.input ∧ cbcencOp s = finishOb s (cbcEnc s.key s.iv s.input) { res := .ok }) := by
  unfold cbcencOp
  split
  · exact .inl ⟨‹_›, rfl⟩
  · exact .inr ⟨not_not.mp ‹_›, rfl⟩

theorem cbcdecOp_cases (s : State) :
    (¬ Aligned s.input ∧ cbcdecOp s = refuse s .eAlign) ∨
    (Aligned s.input ∧ cbcdecOp s = finishOb s (cbcDec s.key s.iv s.input) { res := .ok }) := by
  unfold cbcdecOp
  split
  · exact .inl ⟨‹_›, rfl⟩
  · exact .inr ⟨not_not.mp ‹_›, rfl⟩

theorem discOp_cases (s : State) :
    (s.input.length ≠ discLen ∧ discOp s = refuse s .eLen) ∨
    (s.input.length = discLen ∧ discOp s = finishOb s (sealChecksum s.input s.cfg.discOffCs) { res := .ok }) := by
  unfold discOp
  split
  · exact .inl ⟨‹_›, rfl⟩
  · exact .inr ⟨by simp_all, rfl⟩

theorem frameOp_cases (s : State) :
    (¬ s.FrameReady ∧ ∃ c, frameOp s = refuse s c) ∨
    (s.FrameReady ∧ frameOp s = finishOb { s with seq := s.seq + 1 } (packetOf s) { res := .ok }) := by
  unfold frameOp
  split
  · exact .inl ⟨fun h => by simp_all, _, rfl⟩
  · split
    · exact .inl ⟨fun h => by simp_all, _, rfl⟩
    · split
      · exact .inl ⟨fun h => by have := h.2.2; omega, _, rfl⟩
      · exact .inr ⟨⟨by simp_all, not_not.mp ‹_›, by omega⟩, rfl⟩

/-- A refused FRAME, by the order of R210. -/
theorem frameOp_eq_of_ready (s : State) (h : s.FrameReady) :
    frameOp s = finishOb { s with seq := s.seq + 1 } (packetOf s) { res := .ok } := by
  rcases frameOp_cases s with ⟨hn, _⟩ | ⟨_, he⟩
  · exact absurd h hn
  · exact he

theorem receive_cases (s : State) (rcmd : Byte) (arm : State → Received → State) :
    (s.opened = false ∧ receive s rcmd arm = refuse s .eState) ∨
    (s.opened = true ∧ ∃ why rerr cmd evs, receive s rcmd arm = parseIgnored s why rerr cmd evs) ∨
    (s.ParseReady ∧ receive s rcmd arm = arm s ⟨errorCode s.cfg s.input, rcmd, s.plaintext⟩) := by
  simp only [receive]
  split
  · exact .inl ⟨by simp_all, rfl⟩
  · have ho : s.opened = true := by simp_all
    split
    · exact .inr (.inl ⟨ho, _, _, _, _, rfl⟩)
    · split
      · exact .inr (.inl ⟨ho, _, _, _, _, rfl⟩)
      · split
        · exact .inr (.inl ⟨ho, _, _, _, _, rfl⟩)
        · rename_i hstop ha
          refine .inr (.inr ⟨⟨ho, by omega, ?_, not_not.mp ha⟩, rfl⟩)
          by_cases hz : errorCode s.cfg s.input = 0
          · exact .inl hz
          · exact .inr (Bool.eq_false_iff.mpr fun hc => hstop ⟨hz, hc⟩)

theorem receive_of_ready (s : State) (rcmd : Byte) (arm : State → Received → State) (h : s.ParseReady) :
    receive s rcmd arm = arm s ⟨errorCode s.cfg s.input, rcmd, s.plaintext⟩ := by
  obtain ⟨ho, hl, he, ha⟩ := h
  have hs : ¬ (errorCode s.cfg s.input ≠ 0 ∧ s.cfg.rxStopOnErr = true) := by
    rintro ⟨h1, h2⟩
    rcases he with he | he
    · exact h1 he
    · simp [he] at h2
  simp only [receive]
  rw [if_neg (by simp [ho]), if_neg (by omega), if_neg hs, if_neg (not_not.mpr ha)]
  rfl

theorem armHandshake_cases (s : State) (rx : Received) :
    (rx.pt.length < handshakeNeed s.cfg ∧
      armHandshake s rx = parseIgnored s .hsLen rx.rerr rx.rcmd (errorEvents rx.rerr)) ∨
    (handshakeNeed s.cfg ≤ rx.pt.length ∧ armHandshake s rx =
      parseDone { s with sid := handshakeSid rx.pt, key := handshakeKey s.cfg rx.pt, status := setAuth s.status }
        rx .ready .ready) := by
  unfold armHandshake
  split
  · exact .inl ⟨‹_›, rfl⟩
  · exact .inr ⟨by omega, rfl⟩

theorem dispatchArm_cases (s : State) (rx : Received) :
    (rx.rcmd = 0xe9#8 ∧ dispatchArm s rx = armHandshake s rx) ∨
    ((rx.rcmd = 0xee#8 ∨ rx.rcmd = 0xef#8) ∧ dispatchArm s rx = armData s rx) ∨
    ((rx.rcmd ≠ 0xe9#8 ∧ rx.rcmd ≠ 0xee#8 ∧ rx.rcmd ≠ 0xef#8) ∧ dispatchArm s rx = armUnknown s rx) := by
  unfold dispatchArm
  split
  · exact .inl ⟨‹_›, rfl⟩
  · split
    · exact .inr (.inl ⟨‹_›, rfl⟩)
    · exact .inr (.inr ⟨by simp_all, rfl⟩)

theorem helloOp_cases (s : State) :
    (s.input.length < helloNeed s.cfg ∧
      helloOp s = s.withOut { res := .ok, verdict := some .ignored, why := some .short }) ∨
    (helloNeed s.cfg ≤ s.input.length ∧ helloOp s = s.withOut
      { res := .ok, verdict := some .hello, why := some .noReason, oident := some (helloIdent s.cfg s.input),
        val16 := some (le16 s.input s.cfg.helloOffDevtype) }) := by
  unfold helloOp
  split
  · exact .inl ⟨‹_›, rfl⟩
  · exact .inr ⟨by omega, rfl⟩

theorem send_cases (b : List Byte) (s : State) :
    (b.length ≤ s.cfg.maxDgram ∧
      send b s = .next (frameOp (driveFrame outerCommand { s with ib := Memory.ofBytes b }))) ∨
    (s.cfg.maxDgram < b.length ∧ send b s = .refused .inputTooLong) := by
  rcases hostFill_cases b s with ⟨h, e⟩ | ⟨h, e⟩
  · exact .inl ⟨h, by simp [send, e, sendInput]⟩
  · exact .inr ⟨h, by simp [send, e]⟩

theorem replyRow_cases (s : State) :
    ((s.dataReply = false ∨ s.output = []) ∧ replyRow s = none) ∨
    ∃ param pt, s.dataReply = true ∧ s.output = param :: pt ∧ replyRow s = some (decodeReply param) := by
  unfold replyRow
  split
  · exact .inl ⟨.inr ‹_›, rfl⟩
  · split
    · exact .inr ⟨_, _, ‹_›, ‹_›, rfl⟩
    · exact .inl ⟨.inl (Bool.eq_false_iff.mpr ‹_›), rfl⟩

theorem rfDataOf_cases (pt : List Byte) :
    ((pt = [] ∨ pt.length < Config.rfDataNeed) ∧ rfDataOf pt = none) ∨
    (pt ≠ [] ∧ Config.rfDataNeed ≤ pt.length ∧ rfDataOf pt = some (.rfData (Config.rfDataBytes pt))) := by
  unfold rfDataOf
  split
  · exact .inl ⟨‹_›, rfl⟩
  · exact .inr ⟨by simp_all, by simp_all, rfl⟩

theorem step_of_queue {s : State} {a : HostAction} {rest : List HostAction} (hw : s.cfg.WellFormed)
    (hq : s.queue = a :: rest) : step s = perform a (s.withQueue rest) := by
  unfold step; rw [if_pos hw, hq]

theorem step_idle {s : State} (hw : s.cfg.WellFormed) (hq : s.queue = []) : step s = .next s := by
  unfold step; rw [if_pos hw, hq]

theorem step_ill_formed {s : State} (hw : ¬ s.cfg.WellFormed) : step s = .refused .configNotWellFormed := by
  unfold step; rw [if_neg hw]

/-- Everything a step that goes on can be: idle, or the next host action performed. -/
theorem step_next_cases {s t : State} (h : step s = .next t) :
    s.cfg.WellFormed ∧ ((s.queue = [] ∧ t = s) ∨
      ∃ a rest, s.queue = a :: rest ∧ perform a (s.withQueue rest) = .next t) := by
  unfold step at h
  split at h
  · refine ⟨‹_›, ?_⟩
    split at h
    · cases h; exact .inl ⟨‹_›, rfl⟩
    · exact .inr ⟨_, _, ‹_›, h⟩
  · cases h

/-- Everything a performed host action that goes on can be. -/
theorem perform_next_cases {a : HostAction} {s t : State} (h : perform a s = .next t) :
    (a = .reset ∧ t = hostReset s) ∨
    (∃ b, a = .fill b ∧ b.length ≤ s.cfg.maxDgram ∧ t = { s with ib := Memory.ofBytes b }) ∨
    (∃ p, a = .issue p ∧ p.off < s.cfg.maxDgram ∧ exec (decodeOp p.op) (s.withPorts p) = .next t) ∨
    (∃ i, a = .perform i ∧ i.wf = true ∧ exec i s = .next t) ∨
    (a = .decodeData ∧ (t = setNote s none ∨ ∃ param, exec (decodeReply param) s = .next t)) := by
  cases a with
  | reset => cases h; exact .inl ⟨rfl, rfl⟩
  | fill b =>
    rcases hostFill_cases b s with ⟨hb, e⟩ | ⟨_, e⟩
    · rw [perform, e] at h; cases h; exact .inr (.inl ⟨b, rfl, hb, rfl⟩)
    · rw [perform, e] at h; cases h
  | issue p =>
    simp only [perform] at h
    split at h
    · exact .inr (.inr (.inl ⟨p, rfl, ‹_›, h⟩))
    · cases h
  | perform i =>
    simp only [perform] at h
    split at h
    · exact .inr (.inr (.inr (.inl ⟨i, rfl, ‹_›, h⟩)))
    · cases h
  | decodeData =>
    rcases replyRow_cases s with ⟨_, e⟩ | ⟨param, _, _, _, e⟩
    · simp only [perform, e] at h; cases h; exact .inr (.inr (.inr (.inr ⟨rfl, .inl rfl⟩)))
    · simp only [perform, e] at h; exact .inr (.inr (.inr (.inr ⟨rfl, .inr ⟨param, h⟩⟩)))

end Sys2Proof.Machine
end

