-- ==== Sys2Proof/Laws/Lengths.lean ====
section
/-! SUPPORT. The lengths the cipher, the framer and the payload templates give (spec/43_cbc.md R180, spec/44_framer_parser.md
R213, spec/45_payload_templates.md R261, R264), and that the operations leave both buffers in canonical form. -/

namespace Sys2Proof.Machine

@[simp] theorem length_blocksOf (m : Nat) : ∀ b : List Byte, (blocksOf m b).length = m := by
  induction m with
  | zero => intro b; rfl
  | succ m ih => intro b; simp [blocksOf, ih]

@[simp] theorem length_cbcEncBlocks (rk : Vector (Bytes 16) 11) (ps : List (Bytes 16)) :
    ∀ ch, (cbcEncBlocks rk ch ps).length = ps.length := by
  induction ps with
  | nil => intro ch; rfl
  | cons p ps ih => intro ch; simp [cbcEncBlocks, ih]

@[simp] theorem length_cbcDecBlocks (rk : Vector (Bytes 16) 11) (cs : List (Bytes 16)) :
    ∀ ch, (cbcDecBlocks rk ch cs).length = cs.length := by
  induction cs with
  | nil => intro ch; rfl
  | cons c cs ih => intro ch; simp [cbcDecBlocks, ih]

@[simp] theorem length_joinBlocks (bs : List (Bytes 16)) : (joinBlocks bs).length = 16 * bs.length := by
  induction bs with
  | nil => rfl
  | cons b bs ih =>
    simp only [joinBlocks, List.flatMap_cons, List.length_append, Vector.length_toList, List.length_cons] at *
    omega

/-- No byte is added or removed (R180). -/
theorem length_cbcEnc (k v : Bytes 16) (p : List Byte) (h : Aligned p) : (cbcEnc k v p).length = p.length := by
  simp only [cbcEnc, length_joinBlocks, length_cbcEncBlocks, length_blocksOf]
  unfold Aligned blkLen at *; omega

/-- No byte is added or removed (R180). -/
theorem length_cbcDec (k v : Bytes 16) (c : List Byte) (h : Aligned c) : (cbcDec k v c).length = c.length := by
  simp only [cbcDec, length_joinBlocks, length_cbcDecBlocks, length_blocksOf]
  unfold Aligned blkLen at *; omega

@[simp] theorem length_frameHeader (c : Cfg) (cmd : Byte) (seq : Half) (ident : Bytes 6) (sid : Bytes 4)
    (payload : List Byte) : (frameHeader c cmd seq ident sid payload).length = 56 := by
  simp [frameHeader]

@[simp] theorem length_sealChecksum (b : List Byte) (o : Nat) : (sealChecksum b o).length = b.length := by
  simp [sealChecksum]

/-- R213 (a). -/
theorem length_packetOf (s : State) (h : Aligned s.input) : (packetOf s).length = 56 + s.input.length := by
  simp [packetOf, framePacket, length_cbcEnc _ _ _ h]

@[simp] theorem length_pay16 (code : Byte) : (pay16 code).length = 16 := by simp [pay16]

theorem length_paycode (c : Cfg) (b : List Byte) (h : 1 ≤ c.sendcodePrefixLen) :
    (paycode c b).length = c.sendcodePrefixLen + b.length := by
  simp [paycode]; omega

theorem length_plaintext (s : State) (h : Aligned (ciphertext s.input)) :
    s.plaintext.length = s.input.length - hdrLen := by
  rw [State.plaintext, length_cbcDec _ _ _ h]; simp [ciphertext]

end Sys2Proof.Machine
end

