-- ==== Sys2Proof/Tests/Slice0.lean ====
section
/-! SUPPORT. Tests of the model. Expected values are copied from spec/95_test_vectors.md (vector ids in the names and
docstrings) or from the spec's tables. The second half shows, for each statement with hypotheses, a state and operands
that meet them, at the boundary values of its clauses. -/

namespace Sys2Proof.Machine

section

-- One theorem at a time: the tests wait for the kernel, and each waiting thread would hold a stack.
set_option Elab.async false

/-! ### Helpers -/

/-- The state after an outcome, seen through `f`; none where the machine stops. -/
def after {α : Type} (f : State → α) : Outcome → Option α
  | .next t => some (f t)
  | .fault _ => none
  | .refused _ => none

/-- The reason of a stop by the model. -/
def stopped : Outcome → Option Refusal
  | .next _ => none
  | .fault _ => none
  | .refused r => some r

/-- `s` with `b` in `IB`. -/
def holding (b : List Byte) (s : State) : State := { s with ib := Memory.ofBytes b }

/-- `s` with `b` in `OB`. -/
def answering (b : List Byte) (s : State) : State := { s with ob := Memory.ofBytes b }

/-- The identity of the spec's vectors. -/
def testIdent : Bytes 6 := #v[0xa1, 0xb2, 0xc3, 0xd4, 0xe5, 0xf6]

/-- The state the spec's vectors call O1, with a counter. -/
def openState (seq : Half) : State := { State.reset with status := 0x01, seq := seq, ident := testIdent }

/-- A 56-byte header, zero but for the given bytes. -/
def header (l : List (Nat × Byte)) : List Byte := l.foldl (fun b p => putByte b p.1 p.2) (zeros 56)

/-- `s` with one host action to perform. -/
def todo (a : HostAction) (s : State) : State := { s with queue := [a] }

/-- The ports with one operation number. -/
def presenting (op : Byte) : Ports := { Ports.idle with op := op }

/-- The reference configuration with small buffers. -/
def smallCfg : Cfg := { Cfg.reference with maxDgram := 72 }

/-- The reference configuration with `RX_STOP_ON_ERR`. -/
def stopCfg : Cfg := { Cfg.reference with rxStopOnErr := true }

/-- The reference configuration with its whole-packet checksum outside the header. -/
def badCfg : Cfg := { Cfg.reference with offPktcs := 55 }

/-- The ciphertext of the handshake reply of vector RX9. -/
def handshakeCiphertext : List Byte := [
  0x1f, 0x57, 0x27, 0x57, 0x3a, 0x0c, 0x47, 0xc8, 0x5c, 0x71, 0x66, 0x0c, 0x60, 0xfb, 0x32, 0x29,
  0x2b, 0x2b, 0xe5, 0x1b, 0x78, 0x47, 0x6a, 0x9c, 0xba, 0x64, 0xa4, 0x5d, 0xe8, 0xc9, 0x8f, 0x84]

/-! ### Well-formedness -/

theorem test_wf_refuses_wrong_class_byte :
    Instr.wf (.opReserved 0x01) = false ∧ Instr.wf (.opReserved 0x24) = false ∧ Instr.wf (.rspOther 0xe9) = false ∧
    Instr.wf (.replyOther 0x1b) = false := by decide

theorem test_wf_accepts_class_bytes :
    Instr.wf (.opReserved 0x25) = true ∧ Instr.wf (.rspOther 0x6a) = true ∧ Instr.wf (.replyOther 0x02) = true ∧
    Instr.wf .csum = true := by decide

theorem test_config_reference_wf : Cfg.reference.WellFormed := by decide

/-- One record for each clause of R9 that breaks that clause. -/
def illFormedCfgs : List Cfg := [
  badCfg, { Cfg.reference with offCmd := 0x20 }, { Cfg.reference with offRerr := 55 },
  { Cfg.reference with offRcmd := 56 }, { Cfg.reference with offRcmd := 0x23 }, { Cfg.reference with rerrLen := 3 },
  { Cfg.reference with discOffCs := 47 }, { Cfg.reference with hsKeyLen := 32 }, { Cfg.reference with hsKeyOff := 3 },
  { Cfg.reference with maxDgram := 71 }, { Cfg.reference with sendcodePrefixLen := 0 },
  { Cfg.reference with hdrTemplate := Vector.replicate 56 0x01 }]

theorem test_config_ill_formed : ∀ c ∈ illFormedCfgs, ¬ c.WellFormed := by decide +kernel

/-! ### Decoding: the bits of spec/30_encoding.md R100 to R104 -/

theorem test_decode_op_bits :
    decodeTableWord 8 0b00000001 = some .csum ∧ decodeTableWord 8 0b00000010 = some .csumvfy ∧
    decodeTableWord 8 0b00010000 = some .cbcenc ∧ decodeTableWord 8 0b00010001 = some .cbcdec ∧
    decodeTableWord 8 0b00100000 = some .openOp ∧ decodeTableWord 8 0b00100001 = some .frame ∧
    decodeTableWord 8 0b00100010 = some .parse ∧ decodeTableWord 8 0b00100011 = some .disc ∧
    decodeTableWord 8 0b00100100 = some .hello := by decide

/-- Section 2.7 of the vectors: reserved numbers. -/
theorem test_decode_reserved :
    [0x00, 0x03, 0x0f, 0x12, 0x1f, 0x25, 0x7f, 0x80, 0xff].map (decodeTableWord 8) =
      [some (.opReserved 0x00), some (.opReserved 0x03), some (.opReserved 0x0f), some (.opReserved 0x12),
       some (.opReserved 0x1f), some (.opReserved 0x25), some (.opReserved 0x7f), some (.opReserved 0x80),
       some (.opReserved 0xff)] := by decide

theorem test_decode_rspcmd :
    decodeRsp 0b11101001#8 = .rspHs ∧ decodeRsp 0b11101110#8 = .rspDataEe ∧ decodeRsp 0b11101111#8 = .rspDataEf ∧
    decodeRsp 0b01101010#8 = .rspOther 0x6a#8 ∧ decodeIn .cmdpkt 0b01101010#8 = some .cmdOut ∧
    decodeIn .cmdpkt 0x65#8 = none := by decide

theorem test_decode_pay :
    decodePay16 0b00000001#8 = some .payChecktemp ∧ decodePay16 0b00000011#8 = some .payEnterlearn ∧
    decodePay16 0b00000100#8 = some .payCheckdata ∧ decodePay16 0b00011001#8 = some .payRfsweep ∧
    decodePay16 0b00011010#8 = some .payChecksweep ∧ decodePay16 0b00011011#8 = some .payFindrf ∧
    decodePay16 0b00011110#8 = some .payCancel ∧ decodePay16 0x02#8 = none ∧
    decodeIn .paycode 0b00000010#8 = some .paySendcode := by decide

theorem test_decode_reply :
    decodeReply 0b00000001#8 = .replyTemp ∧ decodeReply 0b00000100#8 = .replyCode ∧
    decodeReply 0b00011010#8 = .replySweep ∧ decodeReply 0b00011011#8 = .replyRfdata ∧
    decodeReply 0x02#8 = .replyOther 0x02#8 := by decide

theorem test_encode_pseudo :
    encode .sendChecktemp = 0b00100001#8 ∧ encode .sendCode = 0b00100001#8 ∧ encode .vfypkt = 0b00000010#8 ∧
    encode .vfydisc = 0b00000010#8 ∧ decodeIn .pseudo (encode .sendCancel) = some .frame ∧
    decodeIn .pseudo (encode .vfydisc) = some .csumvfy := by decide

theorem test_decode_wide_word : decodeTableWord 16 0x121 = none := by decide

/-- The placed operation is the next one run. -/
theorem test_fetch_word_is_run :
    after State.out (step (State.reset.withFetchWord 8 0x20)) = some (some { res := .ok }) ∧
    after State.out (step (State.reset.withFetchWord 8 0x7f)) = some (some { res := .eOp }) := by decide +kernel

/-! ### Registers by number (R20) -/

theorem test_register_numbers :
    [Reg.key, .iv, .sid, .seq, .ident, .status].map Reg.number = [0, 1, 2, 3, 4, 5] := by decide

theorem test_read_registers :
    readReg (openState 0x1233) .seq = 0x1233#16 ∧ readReg (openState 0x1233) .ident = testIdent ∧
    readReg (openState 0x1233) .status = 0x01#8 ∧ readReg State.reset .key = Cfg.reference.key0 := by decide +kernel

/-! ### Reset -/

/-- R301, R303, R304: the numeric values of the codes. -/
theorem test_code_values :
    [ResCode.ok, .eOp, .eState, .eAlign, .eLen, .eRange].map ResCode.code = [0x00, 0x01, 0x02, 0x03, 0x04, 0x05] ∧
    [Verdict.ignored, .ready, .data, .unknown, .hello].map Verdict.code = [0x00, 0x01, 0x02, 0x03, 0x04] ∧
    [Why.noReason, .short, .align, .hsLen, .devErr].map Why.code = [0x00, 0x01, 0x02, 0x03, 0x04] := by decide

theorem test_reset_memory_wf : State.reset.ib.wf = true ∧ State.reset.ob.wf = true := by decide

theorem test_reset_not_open : State.reset.opened = false ∧ State.reset.auth = false := by decide

/-! ### Checksum -/

/-- K1, K3, K4, K9, K14. -/
theorem test_csum_vectors :
    csum [] = 0xBEAF#16 ∧ csum [0xff] = 0xBFAE#16 ∧ csum [0x80] = 0xBF2F#16 ∧
    csum [0x31, 0x32, 0x33, 0x34, 0x35, 0x36, 0x37, 0x38, 0x39] = 0xC08C#16 ∧
    csum (List.replicate 65 0xff ++ [0x92]) = 0x0000#16 := by decide +kernel

/-- K24, on the machine. -/
theorem test_csum_row :
    after State.out (exec .csum (holding (pay16 0x1e) State.reset)) =
      some (some { res := .ok, val16 := some 0xBECD }) := by decide +kernel

/-- F1 and F2. -/
theorem test_csumvfy_f1_f2 :
    after State.out (exec .csumvfy { holding [0x10, 0x20, 0xff, 0xbf, 0x30, 0x40, 0x50, 0x60] State.reset with
      ports := { Ports.idle with off := 2 } }) =
      some (some { res := .ok, val16 := some 0xBFFF, okFlag := some true }) ∧
    after State.out (exec .csumvfy { holding [0x10, 0x20, 0xfe, 0xbf, 0x30, 0x40, 0x50, 0x60] State.reset with
      ports := { Ports.idle with off := 2 } }) =
      some (some { res := .ok, val16 := some 0xBFFF, okFlag := some false }) := by decide +kernel

/-- F4 and F5. -/
theorem test_csumvfy_f4_f5 :
    after State.out (exec .csumvfy { holding [0x10, 0x20, 0xff, 0xbf, 0x30, 0x40, 0x50, 0x60] State.reset with
      ports := { Ports.idle with off := 6 } }) =
      some (some { res := .ok, val16 := some 0xC10D, okFlag := some false }) ∧
    after State.out (exec .csumvfy { holding [0x10, 0x20, 0xff, 0xbf, 0x30, 0x40, 0x50, 0x60] State.reset with
      ports := { Ports.idle with off := 7 } }) = some (some { res := .eRange }) := by decide +kernel

/-! ### AES-128 and CBC -/

/-- A1 to A5. -/
theorem test_field_and_tables :
    xtime 0x8e = 0x07#8 ∧ xtime 0xff = 0xe5#8 ∧ mul 0x57 0x83 = 0xc1#8 ∧ mul 0x02 0x87 = 0x15#8 ∧
    sbox 0x53 = 0xed#8 ∧ sbox 0xff = 0x16#8 ∧ invSbox 0x00 = 0x52#8 ∧ invSbox 0xed = 0x53#8 ∧ rcon 10 = 0x36#8 := by
  decide +kernel

/-- RoundTransformsAreInverses: a state, one of its columns, and that column. -/
theorem test_witness_column :
    column #v[0xdb, 0x13, 0x53, 0x45, 0xf2, 0x0a, 0x22, 0x5c, 0x01, 0x01, 0x01, 0x01, 0xc6, 0xc6, 0xc6, 0xc6] 1 =
      #v[0xf2, 0x0a, 0x22, 0x5c] := by decide +kernel

/-- A6 and A7. -/
theorem test_shift_rows :
    shiftRows #v[0x00, 0x01, 0x02, 0x03, 0x04, 0x05, 0x06, 0x07, 0x08, 0x09, 0x0a, 0x0b, 0x0c, 0x0d, 0x0e, 0x0f] =
      #v[0x00, 0x05, 0x0a, 0x0f, 0x04, 0x09, 0x0e, 0x03, 0x08, 0x0d, 0x02, 0x07, 0x0c, 0x01, 0x06, 0x0b] ∧
    invShiftRows #v[0x00, 0x01, 0x02, 0x03, 0x04, 0x05, 0x06, 0x07, 0x08, 0x09, 0x0a, 0x0b, 0x0c, 0x0d, 0x0e, 0x0f] =
      #v[0x00, 0x0d, 0x0a, 0x07, 0x04, 0x01, 0x0e, 0x0b, 0x08, 0x05, 0x02, 0x0f, 0x0c, 0x09, 0x06, 0x03] := by
  decide +kernel

/-- A8 and A9. -/
theorem test_mix_column :
    mixColumn #v[0xdb, 0x13, 0x53, 0x45] = #v[0x8e, 0x4d, 0xa1, 0xbc] ∧
    invMixColumn #v[0x9f, 0xdc, 0x58, 0x9d] = #v[0xf2, 0x0a, 0x22, 0x5c] := by decide +kernel

/-- The last word of the expansion of the FIPS-197 A.1 key. -/
theorem test_key_schedule_last_word :
    keyWord #v[0x2b, 0x7e, 0x15, 0x16, 0x28, 0xae, 0xd2, 0xa6, 0xab, 0xf7, 0x15, 0x88, 0x09, 0xcf, 0x4f, 0x3c] 43 =
      #v[0xb6, 0x63, 0x0c, 0xa6] := by decide +kernel

/-- The first block of P4 step 1, on the machine. -/
theorem test_cbcenc_one_block :
    after State.output (exec .cbcenc (holding (pay16 0x01) State.reset)) =
      some [0x9d, 0xa8, 0xa3, 0xfb, 0x99, 0x9f, 0x62, 0x28, 0x2d, 0x13, 0x95, 0x68, 0x69, 0xf7, 0x28, 0xe4] := by
  decide +kernel

/-- The first block of P4 step 4, on the machine. -/
theorem test_cbcdec_one_block :
    after State.output (exec .cbcdec (holding (zeros 16) State.reset)) =
      some [0x24, 0xa2, 0xd1, 0x3a, 0xf8, 0xe0, 0xf0, 0x75, 0xa2, 0x2b, 0xee, 0x01, 0x58, 0x50, 0xeb, 0x91] := by
  decide +kernel

theorem test_cbc_unaligned :
    after State.out (exec .cbcenc (holding (zeros 15) State.reset)) = some (some { res := .eAlign }) ∧
    after State.out (exec .cbcdec (holding (zeros 17) State.reset)) = some (some { res := .eAlign }) := by
  decide +kernel

/-! ### OPEN, FRAME, DISC -/

/-- P1 steps 2 and 3. -/
theorem test_open :
    after (fun t => (t.seq, t.ident, t.status)) (exec .openOp { State.reset with
      ports := { Ports.idle with ident := testIdent, seq0 := 0x1233 } }) = some (0x1233#16, testIdent, 0x01#8) ∧
    after State.out (exec .openOp (openState 0x1233)) = some (some { res := .eState }) := by decide +kernel

/-- P2 step 3: the counter wraps, and the header fields. -/
theorem test_frame_empty_payload :
    after (fun t => (t.seq, t.output.drop 0x20)) (exec .frame { openState 0xffff with
      ports := { Ports.idle with cmd := 0x6a } }) =
      some (0x0000#16, [0x98, 0xc9, 0x00, 0x00, 0x2a, 0x27, 0x6a, 0x00, 0x00, 0x00, 0xf6, 0xe5, 0xd4, 0xc3, 0xb2, 0xa1,
        0x00, 0x00, 0x00, 0x00, 0xaf, 0xbe, 0x00, 0x00]) := by decide +kernel

/-- P1 step 1, and P2 step 5. -/
theorem test_frame_refused :
    after State.out (exec .frame (holding (pay16 0x01) State.reset)) = some (some { res := .eState }) ∧
    after (fun t => (t.seq, t.out)) (exec .frame (holding (zeros 15) (openState 0x0001))) =
      some (0x0001#16, some { res := .eAlign }) := by decide +kernel

/-- P2 step 2 through the row CMD.OUT: the outer command byte. -/
theorem test_cmd_out :
    after (fun t => (t.seq, (t.output.drop 0x20).take 10)) (exec .cmdOut (openState 0xfffe)) =
      some (0xffff#16, [0x96, 0xcb, 0x00, 0x00, 0x2a, 0x27, 0x6a, 0x00, 0xff, 0xff]) := by decide +kernel

/-- DV2 and DV4. -/
theorem test_disc :
    after (fun t => t.output.drop 0x20) (exec .disc (holding (putByte (zeros 48) 0x26 0x06) State.reset)) =
      some [0xb5, 0xbe, 0x00, 0x00, 0x00, 0x00, 0x06, 0x00, 0x00, 0x00, 0x00, 0x00, 0x00, 0x00, 0x00, 0x00] ∧
    after State.out (exec .disc (holding (zeros 47) State.reset)) = some (some { res := .eLen }) := by decide +kernel

/-! ### PARSE and HELLO -/

/-- RX1 and RX2. -/
theorem test_parse_short_and_empty :
    after State.out (exec .parse (holding (zeros 55) (openState 0))) =
      some (some { res := .ok, verdict := some .ignored, why := some .short, rcmd := some 0, rerr := some 0 }) ∧
    after State.out (exec .parse (holding (zeros 56) (openState 0))) =
      some (some { res := .ok, verdict := some .unknown, why := some .noReason, rcmd := some 0, rerr := some 0,
                   events := [.unknown 0] }) := by decide +kernel

/-- RX5 and RX5s. -/
theorem test_parse_device_error :
    after State.out (exec .parse (holding (header [(0x22, 0xf9), (0x23, 0xff), (0x26, 0xee)]) (openState 0))) =
      some (some { res := .ok, verdict := some .data, why := some .noReason, rcmd := some 0xee, rerr := some 0xfff9,
                   events := [.devErr 0xfff9, .data] }) ∧
    after State.out (exec .parse { holding (header [(0x22, 0xf9), (0x23, 0xff), (0x26, 0xee)]) (openState 0) with
      cfg := stopCfg }) =
      some (some { res := .ok, verdict := some .ignored, why := some .devErr, rcmd := some 0xee, rerr := some 0xfff9,
                   events := [.devErr 0xfff9] }) := by decide +kernel

/-- RX9: the registers after the handshake reply. -/
theorem test_rsp_hs :
    after (fun t => (t.key, t.sid, t.status)) (exec .rspHs
      (holding (header [(0x26, 0xe9)] ++ handshakeCiphertext) (openState 0))) =
      some (#v[0x00, 0x11, 0x22, 0x33, 0x44, 0x55, 0x66, 0x77, 0x88, 0x99, 0xaa, 0xbb, 0xcc, 0xdd, 0xee, 0xff],
        #v[0xde, 0xad, 0xbe, 0xef], 0x03#8) := by decide +kernel

/-- RX6: the plaintext of a data reply, and the host's decoding of it (R275: 23.5 degrees). -/
theorem test_rsp_data :
    after State.output (exec .rspDataEe (holding (header [(0x26, 0xee)] ++
      [0xe0, 0x6a, 0xc7, 0xa3, 0x5f, 0xd4, 0x1f, 0xeb, 0xd5, 0x48, 0xf8, 0x08, 0x7d, 0xfc, 0xe7, 0x51])
      (openState 0))) =
      some [0x01, 0x00, 0x00, 0x00, 0x17, 0x05, 0x00, 0x00, 0x00, 0x00, 0x00, 0x00, 0x00, 0x00, 0x00, 0x00] ∧
    after State.note (exec .replyTemp (answering [0x01, 0x00, 0x00, 0x00, 0x17, 0x05] (openState 0))) =
      some (some (.temperature 235)) := by decide +kernel

/-- RX5 for the row RSP.DATA_EF, with command byte 0xef, and RX2 for RSP.OTHER. -/
theorem test_rsp_other_rows :
    after State.out (exec .rspDataEf (holding (header [(0x26, 0xef)]) (openState 0))) =
      some (some { res := .ok, verdict := some .data, why := some .noReason, rcmd := some 0xef, rerr := some 0,
                   events := [.data] }) ∧
    after State.out (exec (.rspOther 0x6a) (holding (header [(0x26, 0x6a)]) (openState 0))) =
      some (some { res := .ok, verdict := some .unknown, why := some .noReason, rcmd := some 0x6a, rerr := some 0,
                   events := [.unknown 0x6a] }) := by decide +kernel

/-- H1. -/
theorem test_hello_h1 :
    after State.out (exec .hello (holding (zeros 52 ++ [0x2a, 0x27, 0, 0, 0, 0, 0xf6, 0xe5, 0xd4, 0xc3, 0xb2, 0xa1])
      State.reset)) =
      some (some { res := .ok, verdict := some .hello, why := some .noReason, oident := some testIdent,
                   val16 := some 0x272a }) := by decide +kernel

/-- H2. -/
theorem test_hello_h2 :
    after State.out (exec .hello (holding (zeros 63) State.reset)) =
      some (some { res := .ok, verdict := some .ignored, why := some .short }) := by decide +kernel

/-! ### Payloads, replies, pseudo-operations -/

/-- R264: the prefix of the reference configuration, `02 00 00 00`. -/
theorem test_pay_sendcode :
    after State.input (exec .paySendcode (holding [0x26, 0x00, 0x01] State.reset)) =
      some [0x02, 0x00, 0x00, 0x00, 0x26, 0x00, 0x01] := by decide +kernel

/-- R265 and R270. -/
theorem test_pay_templates :
    after State.input (exec .payEnterlearn State.reset) = some (0x03#8 :: List.replicate 15 0x00#8) ∧
    after State.input (exec .payFindrf State.reset) = some (0x1b#8 :: List.replicate 15 0x00#8) := by decide +kernel

/-- R276 and R279. -/
theorem test_reply_rows :
    after State.note (exec .replyCode (answering [0x04, 0, 0, 0, 0x01, 0x02, 0x03] State.reset)) =
      some (some (.rawData [0x01, 0x02, 0x03])) ∧
    after State.note (exec (.replyOther 0x02) (answering [0x02, 0, 0, 0] State.reset)) = some none := by
  decide +kernel

/-- P2 step 6: the header of P2a, through the row SEND.CHECKDATA. -/
theorem test_send_checkdata :
    after (fun t => (t.seq, (t.output.drop 0x20).take 0x18)) (exec .sendCheckdata (openState 0x0001)) =
      some (0x0002#16, [0xe0, 0xcf, 0x00, 0x00, 0x2a, 0x27, 0x6a, 0x00, 0x02, 0x00, 0xf6, 0xe5, 0xd4, 0xc3, 0xb2, 0xa1,
        0x00, 0x00, 0x00, 0x00, 0xb3, 0xbe, 0x00, 0x00]) := by decide +kernel

/-- DV1's image through VFYDISC: the stored `af be` verifies; a packet too short for the field does not run. -/
theorem test_verify_rows :
    after State.out (exec .vfydisc (holding (zeros 32 ++ [0xaf, 0xbe] ++ zeros 14) State.reset)) =
      some (some { res := .ok, val16 := some 0xBEAF, okFlag := some true }) ∧
    after State.out (exec .vfypkt (holding (zeros 33) State.reset)) = some (some { res := .eRange }) := by
  decide +kernel

/-! ### Steps -/

theorem test_step_stops :
    stopped (step { State.reset with cfg := badCfg }) = some .configNotWellFormed ∧
    stopped (step (todo (.perform (.opReserved 0x01)) State.reset)) = some .illFormedInstruction ∧
    stopped (step { todo (.fill (zeros 73)) State.reset with cfg := smallCfg }) = some .inputTooLong ∧
    stopped (step { todo (.issue { Ports.idle with off := 72 }) State.reset with cfg := smallCfg }) =
      some .offsetTooLarge := by
  decide +kernel

theorem test_step_decode_data :
    after State.note (step { todo .decodeData (answering [0x01, 0, 0, 0, 0x17, 0x05] State.reset) with
      dataReply := true }) = some (some (.temperature 235)) ∧
    after State.note (step (todo .decodeData (answering [0x01, 0, 0, 0, 0x17, 0x05] State.reset))) = some none := by
  decide +kernel

/-- R125, R274: a data reply is still one after a CSUM, which leaves `OB` alone, and no longer after DISC, which fills it. -/
theorem test_data_reply_outlives_csum :
    after State.dataReply (exec .parse (holding (header [(0x26, 0xee)]) (openState 0))) = some true ∧
    after State.dataReply (exec .csum { answering [0x01, 0, 0, 0, 0x17, 0x05] State.reset with dataReply := true }) =
      some true ∧
    after State.dataReply (exec .disc { holding (zeros 48) State.reset with dataReply := true }) = some false := by
  decide +kernel

/-! ### Witnesses: for each statement with hypotheses, a state and operands that meet them -/

/-- A session with a 16-byte payload in `IB`, ready for FRAME. -/
def framing : State := holding (pay16 0x01) (openState 0x1233)

/-- A session with a whole header and one block in `IB`, received under command byte `c`. -/
def receiving (c : Byte) (n : Nat) : State := holding (header [(0x26, c)] ++ zeros n) (openState 0)

/-- A configuration whose error code overlaps no command field, as the loop-back statement asks. -/
def loopBack (cmd : Byte) (n : Nat) : State :=
  { holding (zeros n) (openState 7) with ports := { Ports.idle with cmd := cmd } }

/-- Two-block plaintexts that agree on the first block, and their like. -/
def twoBlocks (b : Byte) : List Byte := zeros 16 ++ List.replicate 16 b

/-- RowByteDecodesToItsRow: a format of bytes, rows of both kinds, a byte without a row. -/
theorem test_witness_row_byte :
    Format.pay16 ≠ Format.pseudo ∧ decodeIn .pay16 0x1e#8 = some .payCancel ∧ decodeIn .pay16 0x05#8 = none ∧
    Instr.format .sendCancel = .pseudo ∧
    Instr.wf .vfydisc = true ∧ Instr.wf (.opReserved 0x00) = true ∧ Instr.wf (.replyOther 0xff) = true := by decide

/-- StepRunsTheDecodedOperation, ReservedNumbersAreRefused: the numbers next to the nine. -/
theorem test_witness_step_issue :
    State.reset.cfg.WellFormed ∧ (todo (.issue (presenting 0x21)) State.reset).queue = [.issue (presenting 0x21)] ∧
    (presenting 0x21).off < State.reset.cfg.maxDgram ∧ (presenting 0x25).op ∉ definedOps ∧ (presenting 0x00).op ∉ definedOps := by decide +kernel

/-- StepPerformsTheHostAction, clause by clause; the two fills at the limit and one past it. -/
theorem test_witness_step_actions :
    State.reset.queue = [] ∧ (todo .reset State.reset).queue = [.reset] ∧ smallCfg.WellFormed ∧
    (zeros 72).length ≤ smallCfg.maxDgram ∧ smallCfg.maxDgram < (zeros 73).length ∧
    smallCfg.maxDgram ≤ ({ Ports.idle with off := 72 } : Ports).off ∧
    ({ Ports.idle with off := 71 } : Ports).off < smallCfg.maxDgram ∧
    Instr.wf .sendCode = true ∧ Instr.wf (.rspOther 0xef) = false ∧ ¬ badCfg.WellFormed := by decide +kernel

/-- StepPerformsTheHostAction, the two clauses on a data reply. -/
theorem test_witness_decode_data :
    (answering [0x1b, 0x00] State.reset).output = [0x1b, 0x00] ∧ (answering [] State.reset).output = [] ∧
    { State.reset with dataReply := true }.dataReply = true ∧ State.reset.dataReply = false := by decide +kernel

/-- ResetLoadsTheConfiguredValues: the host's reset of an open session. -/
theorem test_witness_reset :
    smallCfg.WellFormed ∧ after (fun t => (t.status, t.ib)) (step (todo .reset framing)) = some (0x00#8, []) := by
  decide +kernel

/-- StepKeepsTheInvariant, StatusRecordsOpenAndReady: states with the invariant, one of each `STATUS`. -/
theorem test_witness_inv :
    ∀ s ∈ [State.reset, openState 5, framing, { openState 5 with status := 0x03, key := zeroBytes 16 },
      { answering (zeros 16) (openState 5) with dataReply := true }], s.Inv := by decide +kernel

/-- States without it: a reserved bit of `STATUS`, a data reply without a session, an offset past the port's width. -/
theorem test_not_inv :
    ∀ s ∈ [{ openState 5 with status := 0x04 }, { State.reset with dataReply := true },
      { State.reset with ports := { Ports.idle with off := 65507 } }], ¬ s.Inv := by decide +kernel

/-- StatusRecordsOpenAndReady: the step that sets `OPENED`. -/
theorem test_witness_opens :
    (todo (.issue (presenting 0x20)) State.reset).Inv ∧
    after State.opened (step (todo (.issue (presenting 0x20)) State.reset)) = some true := by decide +kernel

/-- StatusRecordsOpenAndReady, KeyReplacedOnlyByReady, KeySwitchIsVisibleAtOnce: a step that sets `AUTH` and
reports `V_READY`. -/
theorem test_witness_ready :
    (todo (.issue (presenting 0x22)) (receiving 0xe9 32)).Inv ∧
    after (fun t => (t.auth, t.out.map (·.verdict))) (step (todo (.issue (presenting 0x22)) (receiving 0xe9 32))) =
      some (true, some (some .ready)) ∧
    after (fun t => t.out.map (·.verdict)) (exec .parse (receiving 0xe9 32)) = some (some (some .ready)) ∧
    Aligned (pay16 0x01) ∧ 56 + (pay16 0x01).length ≤ (receiving 0xe9 32).cfg.maxDgram := by decide +kernel

/-- CsumLaws: a permutation, and the last offset of a sequence. -/
theorem test_witness_csum_laws :
    List.Perm [0x01#8, 0x02#8, 0x03#8] [0x03#8, 0x02#8, 0x01#8] ∧ 2 < [0x01#8, 0x02#8, 0x03#8].length := by decide

/-- CsumvfyChecksTheStoredField at its boundary: the last legal offset, and one past it. -/
theorem test_witness_csumvfy :
    6 + 2 ≤ (holding (zeros 8) State.reset).input.length ∧ (holding (zeros 8) State.reset).input.length < 7 + 2 := by
  decide +kernel

/-- GfInverseIsUnique, KeyScheduleRecurrence: a nonzero byte and its inverse, the first and the last index. -/
theorem test_witness_field : (0x53#8 : Byte) ≠ 0 ∧ mul 0x53 0xca = 1#8 ∧ 3 < 4 ∧ 4 ≤ 4 ∧ 43 < 44 := by decide +kernel

/-- CbcBlockEquations, CbcRoundTrip, CbcCiphertextPrefix, CbcErrorPropagation. -/
theorem test_witness_cbc :
    Aligned (twoBlocks 0x01) ∧ Aligned [] ∧ 1 < (twoBlocks 0x01).length / 16 ∧ 16 * 1 ≤ (twoBlocks 0x01).length ∧
    (twoBlocks 0x01).take (16 * 1) = (twoBlocks 0x02).take (16 * 1) ∧
    blockAt (twoBlocks 0x01) 0 = blockAt (twoBlocks 0x02) 0 ∧
    blockAt (twoBlocks 0x01) 1 ≠ blockAt (twoBlocks 0x02) 1 := by decide +kernel

/-- CipherOperationsTransformIb, CbcencThenCbcdecRestoresTheInput: one byte short, exact, one byte over. -/
theorem test_witness_cipher :
    ¬ Aligned (holding (zeros 15) State.reset).input ∧ Aligned (holding (zeros 16) State.reset).input ∧
    ¬ Aligned (holding (zeros 17) State.reset).input := by decide +kernel

/-- OpenLoadsTheSession, and the clauses of FrameChecksInOrder; with `MAX_DGRAM = 72` two blocks are too many. -/
theorem test_witness_frame_checks :
    State.reset.opened = false ∧ (openState 0).opened = true ∧
    ¬ Aligned (holding (zeros 15) (openState 0)).input ∧ Aligned (zeros 32) ∧
    smallCfg.maxDgram < 56 + (zeros 32).length := by decide +kernel

/-- The premises of the statements on FRAME, CMD.OUT and SEND.CODE, also with a full buffer and an empty payload; those of
their refused clauses, and of the SEND rows', are in the theorem above. -/
theorem test_witness_frame_ready :
    framing.cfg.WellFormed ∧ framing.FrameReady ∧ (openState 0).FrameReady ∧
    { framing with cfg := smallCfg }.FrameReady := by decide +kernel

/-- SequenceCounterWraps: the counter after two FRAMEs from 0xffff (P2 steps 3 and 4). -/
theorem test_witness_frames :
    (openState 0xffff).FrameReady ∧ after State.seq (frames 2 (openState 0xffff)) = some 0x0001#16 := by
  decide +kernel

/-- DiscoveryPacketVerifies and DiscCompletesTheImage: a byte short, exact, a byte over. -/
theorem test_witness_disc :
    (holding (zeros 48) State.reset).input.length = 48 ∧ (holding (zeros 47) State.reset).input.length ≠ 48 ∧
    (holding (zeros 49) State.reset).input.length ≠ 48 ∧ ¬ InRange 0x1f 0x20 2 ∧ ¬ InRange 0x22 0x20 2 := by
  decide +kernel

/-- ResponseRowsReceiveUnderTheirByte: which rows receive a datagram, and under which byte. -/
theorem test_witness_received :
    receivedCommand (receiving 0xe9 32) .parse = some 0xe9#8 ∧ receivedCommand (receiving 0 0) .rspHs = some 0xe9#8 ∧
    receivedCommand (receiving 0 0) .rspDataEf = some 0xef#8 ∧
    receivedCommand (receiving 0 0) (.rspOther 0x6a) = some 0x6a#8 ∧ Instr.wf (.rspOther 0x6a) = true := by
  decide +kernel

/-- MalformedDatagramsAreIgnored, and the short clause of HandshakeReplyInstallsKeyAndSid: short by one byte, one byte
past a header, one block too few. -/
theorem test_witness_malformed :
    (holding (zeros 55) (openState 0)).input.length < 56 ∧ (receiving 0 1).input.length = 57 ∧
    ((receiving 0 1).input.length - 56) % 16 ≠ 0 ∧ errorCode Cfg.reference (receiving 0 1).input = 0 ∧
    (receiving 0xe9 16).ParseReady ∧ (receiving 0xe9 16).input.length - 56 < max 4 (Cfg.reference.hsKeyOff + 16) := by
  decide +kernel

/-- MalformedDatagramsAreIgnored: an error code with `RX_STOP_ON_ERR` set; the clause below it, with it clear. -/
theorem test_witness_device_error :
    errorCode stopCfg (header [(0x22, 0x01)]) ≠ 0 ∧ stopCfg.rxStopOnErr = true ∧ stopCfg.WellFormed ∧
    errorCode Cfg.reference (header [(0x22, 0x01)]) ≠ 0 ∧ Cfg.reference.rxStopOnErr = false := by decide +kernel

/-- HandshakeReplyInstallsKeyAndSid, DataReplyDeliversThePlaintext, UnknownCommandIsReported. -/
theorem test_witness_parse_ready :
    (receiving 0xe9 32).ParseReady ∧ max 4 (Cfg.reference.hsKeyOff + 16) ≤ (receiving 0xe9 32).input.length - 56 ∧
    (receiving 0xee 0).ParseReady ∧ (receiving 0xef 16).ParseReady ∧ (receiving 0x6a 16).ParseReady ∧
    receivedCommand (receiving 0x6a 16) .parse = some 0x6a#8 := by decide +kernel

/-- EventsFollowTheReport, RefusalChangesNothing: a result with two events, and a refusal. -/
theorem test_witness_events :
    after (fun t => t.out.map (·.events)) (exec .parse (holding (header [(0x22, 0x01), (0x26, 0xee)]) (openState 0))) =
      some (some [.devErr 0x0001, .data]) ∧
    after (fun t => t.out.map (·.res)) (exec .parse State.reset) = some (some .eState) ∧
    Instr.format .parse = .op ∧ Instr.format (.rspOther 0x6a) = .rspcmd := by decide +kernel

/-- LoopBackReturnsThePayload: the reference configuration meets the conditions; a data command with an empty payload,
and a handshake command with two blocks. -/
theorem test_witness_loop_back :
    (loopBack 0xee 0).FrameReady ∧ (loopBack 0xe9 32).FrameReady ∧ Cfg.reference.offRcmd = Cfg.reference.offCmd ∧
    (∀ f ∈ Cfg.reference.cmdFields, Disjoint2 (Cfg.reference.offRerr, Cfg.reference.rerrLen) f) ∧
    (∀ j < Cfg.reference.rerrLen, byteAt Cfg.reference.hdrTemplate.toList (Cfg.reference.offRerr + j) = 0) ∧
    max 4 (Cfg.reference.hsKeyOff + 16) ≤ (loopBack 0xe9 32).input.length := by decide +kernel

/-- HelloExtractsIdentityAndType: the shortest response that holds every mapped byte, and one byte less. -/
theorem test_witness_hello :
    ((∀ j : Fin 6, Cfg.reference.helloIdentMap.get j + 1 ≤ (zeros 64).length) ∧
      Cfg.reference.helloOffDevtype + 2 ≤ (zeros 64).length) ∧
    ¬ ∀ j : Fin 6, Cfg.reference.helloIdentMap.get j + 1 ≤ (zeros 63).length := by decide +kernel

/-- PayTemplatesFillIb, SendRowsFrameTheirTemplate, VerifyRowsCheckTheirField. -/
theorem test_witness_template_rows :
    (Instr.payCancel, 0x1e#8) ∈ payRows ∧ payRows.length = 7 ∧ (Instr.sendFindrf, 0x1b#8) ∈ sendRows ∧
    sendRows.length = 7 ∧ Cfg.reference.offPktcs + 2 ≤ (holding (zeros 34) State.reset).input.length ∧
    (holding (zeros 33) State.reset).input.length < Cfg.reference.offPktcs + 2 := by decide +kernel

/-- SendcodePrefixesTheCode, NoRowStopsTheMachine: a code that just fits, and one byte more. -/
theorem test_witness_sendcode :
    smallCfg.sendcodePrefixLen + (holding (zeros 68) State.reset).input.length ≤ smallCfg.maxDgram ∧
    smallCfg.maxDgram < smallCfg.sendcodePrefixLen + (holding (zeros 69) State.reset).input.length ∧
    smallCfg.WellFormed := by decide +kernel

/-- ReplyRowsDeriveNotifications: the shortest payload of each decoding, and one byte less. -/
theorem test_witness_reply_lengths :
    6 ≤ (answering (zeros 6) State.reset).output.length ∧ (answering (zeros 5) State.reset).output.length < 6 ∧
    4 ≤ (answering (zeros 4) State.reset).output.length ∧ (answering (zeros 3) State.reset).output.length < 4 := by
  decide +kernel

/-- ReplyRowsDeriveNotifications: the two RF-data clauses, whatever length is needed, and the empty `OB`. -/
theorem test_witness_rfdata :
    (answering (zeros (Config.rfDataNeed + 1)) State.reset).output ≠ [] ∧
    Config.rfDataNeed ≤ (answering (zeros (Config.rfDataNeed + 1)) State.reset).output.length ∧
    (answering [] State.reset).output = [] := by
  simp [answering, State.output, zeros]

/-- R274: an empty reply gives no RF-data notification. -/
theorem test_rfdata_empty : after State.note (exec .replyRfdata (answering [] State.reset)) = some none := by
  simp [after, exec, execReplyRfdata, rfDataOf, answering, State.output, Memory.ofBytes, setNote]

/-- ReplyRowsDeriveNotifications: the two sweep clauses, whatever the offset is. -/
theorem test_witness_sweep :
    Config.sweepOffset < (answering (zeros (Config.sweepOffset + 1)) State.reset).output.length ∧
    (answering (zeros Config.sweepOffset) State.reset).output.length ≤ Config.sweepOffset := by
  simp [answering, State.output]

/-- RowsChangeOnlyTheirState: a row that goes on, of each kind of frame. -/
theorem test_witness_frames_of_rows :
    (after State.status (exec .csum State.reset)).isSome = true ∧
    (after State.status (exec .replyRfdata State.reset)).isSome = true ∧
    (after State.status (exec .vfypkt State.reset)).isSome = true ∧
    (after State.status (exec .payCancel State.reset)).isSome = true := by decide +kernel

/-- SeqAndIdentUnreadBeforeOpen, AuthGatesNothing. -/
theorem test_witness_noninterference :
    State.reset.opened = false ∧ (0x03#8).getLsbD 0 = (openState 0).status.getLsbD 0 ∧
    (0x02#8).getLsbD 0 = State.reset.status.getLsbD 0 := by decide +kernel

end

end Sys2Proof.Machine
end

/-! PROOFS. The invariant (O7, O8): it holds after reset, each way a state is written keeps it, so each operation, each
row, each host action and each step keeps it. -/

namespace Sys2Proof.Machine

/-! ### What the clauses of the invariant give -/

/-- R9: the two configured offsets that VFYPKT and VFYDISC drive are values the port `off` can carry (R31). -/
theorem checksum_offsets_lt_maxDgram {c : Cfg} (hw : c.WellFormed) :
    c.offPktcs < c.maxDgram ∧ c.discOffCs < c.maxDgram := by
  obtain ⟨hfields, _, _, _, _, _, hdisc, _, _, _, _, hmax, _⟩ := hw
  have hpktcs : c.offPktcs + 2 ≤ 56 := hfields (c.offPktcs, 2) (by simp [Cfg.cmdFields])
  omega

theorem reference_wellFormed : Cfg.reference.WellFormed := by decide

theorem length_input_le {s : State} (h : s.Inv) : s.input.length ≤ s.cfg.maxDgram := by
  obtain ⟨_, ⟨_, _, hib, _⟩, _⟩ := h
  simpa [State.input] using hib

/-- R220, R224: what PARSE deciphers fits the buffer. -/
theorem length_plaintext_le {s : State} (h : s.Inv) (ha : Aligned (ciphertext s.input)) :
    s.plaintext.length ≤ s.cfg.maxDgram := by
  have hin := length_input_le h
  rw [length_plaintext s ha]
  omega

theorem aligned_plaintext {s : State} (ha : Aligned (ciphertext s.input)) : Aligned s.plaintext := by
  simpa [Aligned, length_plaintext s ha, ciphertext] using ha

/-! ### The values of `STATUS` (R25, R204, R221) -/

theorem status_at_reset : statusReservedZero 0x00#8 = true ∧ (0x00#8 : Byte).getLsbD 1 = false := by decide

theorem statusOpened_legal : statusReservedZero statusOpened = true ∧ statusOpened.getLsbD 0 = true := by decide

@[simp] theorem getLsbD_zero_setAuth (b : Byte) : (setAuth b).getLsbD 0 = b.getLsbD 0 := by simp [setAuth]

@[simp] theorem getLsbD_one_setAuth (b : Byte) : (setAuth b).getLsbD 1 = true := by simp [setAuth]

@[simp] theorem statusReservedZero_setAuth (b : Byte) :
    statusReservedZero (setAuth b) = statusReservedZero b := by
  have hmask : (b ||| 0x02#8) &&& 0xfc#8 = b &&& 0xfc#8 := by
    rw [BitVec.and_comm, BitVec.and_or_distrib_left]
    simp [BitVec.and_comm]
  simp only [statusReservedZero, setAuth, hmask]

/-! ### The ways a state is written -/

theorem inv_resetWith {c : Cfg} (hw : c.WellFormed) : (State.resetWith c).Inv := by
  obtain ⟨hreserved, hauth⟩ := status_at_reset
  have hport : 0 < c.maxDgram := Nat.zero_lt_of_lt (checksum_offsets_lt_maxDgram hw).1
  refine ⟨hw, ⟨wf_nil, wf_nil, Nat.zero_le _, Nat.zero_le _⟩, hport, ?_, ⟨hreserved, ?_⟩, rfl, fun _ => ⟨rfl, rfl⟩⟩
  · rintro ⟨⟩
  · intro hset
    exact absurd (hauth.symm.trans hset) (by decide)

theorem inv_withQueue {s : State} (h : s.Inv) (q : List HostAction) : (s.withQueue q).Inv := h

theorem inv_setNote {s : State} (h : s.Inv) (n : Option Notification) : (setNote s n).Inv := h

theorem inv_finish {s : State} (h : s.Inv) (r : Result) : (finish s r).Inv := h

theorem inv_refuse {s : State} (h : s.Inv) (c : ResCode) : (refuse s c).Inv := inv_finish h _

theorem inv_withOut {s : State} (h : s.Inv) (r : Result) : (s.withOut r).Inv := h

theorem inv_withPorts {s : State} (h : s.Inv) {p : Ports} (hp : p.off < s.cfg.maxDgram) : (s.withPorts p).Inv := by
  obtain ⟨hw, hbuf, _, hrest⟩ := h
  exact ⟨hw, hbuf, hp, hrest⟩

theorem inv_driveFrame {s : State} (h : s.Inv) (cmd : Byte) : (driveFrame cmd s).Inv := h

theorem inv_driveCsumvfy {s : State} (h : s.Inv) {o : Nat} (ho : o < s.cfg.maxDgram) : (driveCsumvfy o s).Inv :=
  inv_withPorts h (p := { s.ports with op := 0x02#8, off := o }) ho

/-- `IB` is written from a byte sequence that the buffer holds (R30). -/
theorem inv_fill {s : State} (h : s.Inv) {b : List Byte} (hb : b.length ≤ s.cfg.maxDgram) :
    State.Inv { s with ib := Memory.ofBytes b } := by
  obtain ⟨hw, ⟨_, hobwf, _, hoblen⟩, hrest⟩ := h
  exact ⟨hw, ⟨wf_ofBytes b, hobwf, (len_ofBytes b).trans_le hb, hoblen⟩, hrest⟩

/-- `OB` is written from a byte sequence that the buffer holds; a data reply only in a session, of whole blocks. -/
theorem inv_finishOb {s : State} (h : s.Inv) {b : List Byte} {r : Result} (hb : b.length ≤ s.cfg.maxDgram)
    (hreply : r.verdict = some .data → s.opened = true ∧ Aligned b) : (finishOb s b r).Inv := by
  obtain ⟨hw, ⟨hibwf, _, hiblen, _⟩, hport, _, hrest⟩ := h
  refine ⟨hw, ⟨hibwf, wf_ofBytes b, hiblen, (len_ofBytes b).trans_le hb⟩, hport, fun hmark => ?_, hrest⟩
  obtain ⟨hopen, hblocks⟩ := hreply (by simpa using hmark)
  exact ⟨hopen, by simpa [State.output] using hblocks⟩

/-- R226: the session id, the key and `AUTH` replaced in an open session. -/
theorem inv_install {s : State} (h : s.Inv) (hopen : s.opened = true) (sid : Bytes 4) (key : Bytes 16) :
    State.Inv { s with sid := sid, key := key, status := setAuth s.status } := by
  obtain ⟨hw, hbuf, hport, hreply, ⟨hreserved, _⟩, hiv, _⟩ := h
  have hopen' : State.opened { s with sid := sid, key := key, status := setAuth s.status } = true :=
    (getLsbD_zero_setAuth s.status).trans hopen
  have hauth' : State.auth { s with sid := sid, key := key, status := setAuth s.status } = true :=
    getLsbD_one_setAuth s.status
  refine ⟨hw, hbuf, hport, fun hmark => ⟨hopen', (hreply hmark).2⟩, ⟨?_, fun _ => hopen'⟩, hiv, fun hno => ?_⟩
  · exact (statusReservedZero_setAuth s.status).trans hreserved
  · exact absurd (hauth'.symm.trans hno) (by decide)

/-! ### The operations -/

/-- R35: the host's reset keeps the ports, so the invariant needs their clause from the state before. -/
theorem inv_hostReset {s : State} (h : s.Inv) : (hostReset s).Inv := by
  obtain ⟨hw, _, hport, _⟩ := h
  exact inv_setNote (inv_withQueue (inv_withPorts (inv_resetWith hw) hport) s.queue) s.note

/-- R204: OPEN goes through without a session only, so no data reply stands in `OB`. -/
theorem inv_openSession {s : State} (h : s.Inv) : (openSession s).Inv := by
  rcases openSession_cases s with ⟨_, e⟩ | ⟨hclosed, e⟩
  · exact e ▸ inv_refuse h _
  · rw [e]
    obtain ⟨hw, hbuf, hport, hreply, _, _⟩ := h
    obtain ⟨hreserved, hopen⟩ := statusOpened_legal
    refine ⟨hw, hbuf, hport, fun hmark => ?_, ⟨hreserved, fun _ => hopen⟩, rfl, fun _ => ⟨rfl, rfl⟩⟩
    exact absurd ((hreply hmark).1.symm.trans hclosed) (by decide)

theorem inv_csumvfyOp {s : State} (h : s.Inv) : (csumvfyOp s).Inv := by
  rcases csumvfyOp_cases s with ⟨_, e⟩ | ⟨_, e⟩
  · exact e ▸ inv_refuse h _
  · exact e ▸ inv_withOut h _

theorem inv_cbcencOp {s : State} (h : s.Inv) : (cbcencOp s).Inv := by
  rcases cbcencOp_cases s with ⟨_, e⟩ | ⟨ha, e⟩
  · exact e ▸ inv_refuse h _
  · exact e ▸ inv_finishOb h ((length_cbcEnc _ _ _ ha).trans_le (length_input_le h)) (by simp)

theorem inv_cbcdecOp {s : State} (h : s.Inv) : (cbcdecOp s).Inv := by
  rcases cbcdecOp_cases s with ⟨_, e⟩ | ⟨ha, e⟩
  · exact e ▸ inv_refuse h _
  · exact e ▸ inv_finishOb h ((length_cbcDec _ _ _ ha).trans_le (length_input_le h)) (by simp)

theorem inv_discOp {s : State} (h : s.Inv) : (discOp s).Inv := by
  rcases discOp_cases s with ⟨_, e⟩ | ⟨_, e⟩
  · exact e ▸ inv_refuse h _
  · exact e ▸ inv_finishOb h ((length_sealChecksum _ _).trans_le (length_input_le h)) (by simp)

theorem inv_helloOp {s : State} (h : s.Inv) : (helloOp s).Inv := by
  rcases helloOp_cases s with ⟨_, e⟩ | ⟨_, e⟩ <;> exact e ▸ inv_withOut h _

theorem inv_frameOp {s : State} (h : s.Inv) : (frameOp s).Inv := by
  rcases frameOp_cases s with ⟨_, c, e⟩ | ⟨⟨_, ha, hlen⟩, e⟩
  · exact e ▸ inv_refuse h c
  · have hseq : State.Inv { s with seq := s.seq + 1 } := h
    exact e ▸ inv_finishOb hseq ((length_packetOf s ha).trans_le hlen) (by simp)

/-! ### PARSE and the response command rows -/

theorem inv_parseIgnored {s : State} (h : s.Inv) (why : Why) (rerr : Half) (rcmd : Byte) (events : List Event) :
    (parseIgnored s why rerr rcmd events).Inv :=
  inv_finishOb h (Nat.zero_le _) (by simp)

theorem inv_parseDone {s : State} (h : s.Inv) (hopen : s.opened = true) {rx : Received} (ha : Aligned rx.pt)
    (hlen : rx.pt.length ≤ s.cfg.maxDgram) (verdict : Verdict) (event : Event) :
    (parseDone s rx verdict event).Inv :=
  inv_finishOb h hlen fun _ => ⟨hopen, ha⟩

/-- An arm of PARSE keeps the invariant, in a session and on a plaintext of whole blocks that the buffer holds. -/
def ArmKeepsInv (arm : State → Received → State) : Prop :=
  ∀ (s : State) (rx : Received), s.Inv → s.opened = true → Aligned rx.pt → rx.pt.length ≤ s.cfg.maxDgram →
    (arm s rx).Inv

theorem armKeepsInv_handshake : ArmKeepsInv armHandshake := by
  intro s rx h hopen ha hlen
  rcases armHandshake_cases s rx with ⟨_, e⟩ | ⟨_, e⟩
  · exact e ▸ inv_parseIgnored h _ _ _ _
  · have hopen' := (getLsbD_zero_setAuth s.status).trans hopen
    exact e ▸ inv_parseDone (inv_install h hopen _ _) hopen' ha hlen _ _

theorem armKeepsInv_data : ArmKeepsInv armData :=
  fun _ _ h hopen ha hlen => inv_parseDone h hopen ha hlen _ _

theorem armKeepsInv_unknown : ArmKeepsInv armUnknown :=
  fun _ _ h hopen ha hlen => inv_parseDone h hopen ha hlen _ _

theorem armKeepsInv_dispatch : ArmKeepsInv dispatchArm := by
  intro s rx
  rcases dispatchArm_cases s rx with ⟨_, e⟩ | ⟨_, e⟩ | ⟨_, e⟩ <;> rw [e]
  · exact armKeepsInv_handshake s rx
  · exact armKeepsInv_data s rx
  · exact armKeepsInv_unknown s rx

theorem inv_receive {s : State} (h : s.Inv) (rcmd : Byte) {arm : State → Received → State} (harm : ArmKeepsInv arm) :
    (receive s rcmd arm).Inv := by
  rcases receive_cases s rcmd arm with ⟨_, e⟩ | ⟨_, why, rerr, cmd, events, e⟩ | ⟨⟨hopen, _, _, ha⟩, e⟩
  · exact e ▸ inv_refuse h _
  · exact e ▸ inv_parseIgnored h why rerr cmd events
  · exact e ▸ harm s _ h hopen (aligned_plaintext ha) (length_plaintext_le h ha)

/-! ### Rows, host actions and steps -/

/-- The next state of an outcome, if it has one, meets the invariant. -/
def NextInv (o : Outcome) : Prop := ∀ t, o = .next t → t.Inv

theorem nextInv_next {t : State} (h : t.Inv) : NextInv (.next t) := by
  rintro _ ⟨⟩
  exact h

theorem nextInv_hostFill {s : State} (h : s.Inv) (b : List Byte) : NextInv (hostFill b s) := by
  rcases hostFill_cases b s with ⟨hb, e⟩ | ⟨_, e⟩ <;> rw [e]
  · exact nextInv_next (inv_fill h hb)
  · rintro _ ⟨⟩

theorem nextInv_send {s : State} (h : s.Inv) (b : List Byte) : NextInv (send b s) := by
  rcases send_cases b s with ⟨hb, e⟩ | ⟨_, e⟩ <;> rw [e]
  · exact nextInv_next (inv_frameOp (inv_driveFrame (inv_fill h hb) _))
  · rintro _ ⟨⟩

theorem exec_keeps_inv {s : State} (h : s.Inv) : ∀ i : Instr, NextInv (exec i s)
  | .csum => nextInv_next (inv_finish h _)
  | .csumvfy => nextInv_next (inv_csumvfyOp h)
  | .cbcenc => nextInv_next (inv_cbcencOp h)
  | .cbcdec => nextInv_next (inv_cbcdecOp h)
  | .openOp => nextInv_next (inv_openSession h)
  | .frame => nextInv_next (inv_frameOp h)
  | .parse => nextInv_next (inv_receive h _ armKeepsInv_dispatch)
  | .disc => nextInv_next (inv_discOp h)
  | .hello => nextInv_next (inv_helloOp h)
  | .opReserved _ => nextInv_next (inv_refuse h _)
  | .rspHs => nextInv_next (inv_receive h _ armKeepsInv_handshake)
  | .rspDataEe | .rspDataEf => nextInv_next (inv_receive h _ armKeepsInv_data)
  | .rspOther _ => nextInv_next (inv_receive h _ armKeepsInv_unknown)
  | .cmdOut | .sendCode => nextInv_next (inv_frameOp (inv_driveFrame h _))
  | .payChecktemp | .paySendcode | .payEnterlearn | .payCheckdata | .payCancel | .payRfsweep | .payChecksweep
  | .payFindrf => nextInv_hostFill h _
  | .replyTemp | .replyCode | .replySweep | .replyRfdata | .replyOther _ => nextInv_next (inv_setNote h _)
  | .sendChecktemp | .sendEnterlearn | .sendCheckdata | .sendCancel | .sendRfsweep | .sendChecksweep
  | .sendFindrf => nextInv_send h _
  | .vfypkt => nextInv_next (inv_csumvfyOp (inv_driveCsumvfy h (checksum_offsets_lt_maxDgram h.1).1))
  | .vfydisc => nextInv_next (inv_csumvfyOp (inv_driveCsumvfy h (checksum_offsets_lt_maxDgram h.1).2))

theorem perform_keeps_inv {s : State} (h : s.Inv) (a : HostAction) : NextInv (perform a s) := by
  intro t ht
  rcases perform_next_cases ht with
    ⟨_, rfl⟩ | ⟨b, _, hb, rfl⟩ | ⟨p, _, hp, he⟩ | ⟨i, _, _, he⟩ | ⟨_, rfl | ⟨param, he⟩⟩
  · exact inv_hostReset h
  · exact inv_fill h hb
  · exact exec_keeps_inv (inv_withPorts h hp) _ t he
  · exact exec_keeps_inv h i t he
  · exact inv_setNote h none
  · exact exec_keeps_inv h _ t he

/-- Settles O8: an idle step changes nothing, and every host action keeps the invariant. -/
theorem stepKeepsTheInvariant : Obligations.StepKeepsTheInvariant := by
  intro s t h ht
  obtain ⟨_, ⟨_, rfl⟩ | ⟨a, rest, _, ha⟩⟩ := step_next_cases ht
  · exact h
  · exact perform_keeps_inv (inv_withQueue h rest) a t ha

/-- Settles O7: the reset state meets the invariant under every well-formed configuration, the reference one among
them. -/
theorem resetMeetsTheInvariant : Obligations.ResetMeetsTheInvariant :=
  ⟨inv_resetWith reference_wellFormed, fun _ => inv_resetWith⟩

end Sys2Proof.Machine

/-! PROOFS. The frame of every row (O54) from one table of what each row can write; the ways a step can change the session
registers (O9, O10); before OPEN no row reads `SEQ` or `IDENT` (O57). -/

namespace Sys2Proof.Machine

/-! ### What each row can write (R20, R23, R24, R30, R289) -/

/-- The parts of the machine's state, one per field of `State`. -/
inductive StateField where
  | cfg
  | key
  | iv
  | sid
  | seq
  | ident
  | status
  | ib
  | ob
  | ports
  | out
  | dataReply
  | queue
  | note

/-- One part of the state is the same in `t` as in `s`. -/
def StateField.Kept (s t : State) : StateField → Prop
  | .cfg => t.cfg = s.cfg
  | .key => t.key = s.key
  | .iv => t.iv = s.iv
  | .sid => t.sid = s.sid
  | .seq => t.seq = s.seq
  | .ident => t.ident = s.ident
  | .status => t.status = s.status
  | .ib => t.ib = s.ib
  | .ob => t.ob = s.ob
  | .ports => t.ports = s.ports
  | .out => t.out = s.out
  | .dataReply => t.dataReply = s.dataReply
  | .queue => t.queue = s.queue
  | .note => t.note = s.note

theorem StateField.Kept.trans {s t u : State} {f : StateField} (h : f.Kept s t) (h' : f.Kept t u) : f.Kept s u := by
  cases f <;> exact Eq.trans h' h

/-- From `s` to `t` at most the listed parts of the state change. -/
def KeptOutside (w : List StateField) (s t : State) : Prop := ∀ f, f ∉ w → f.Kept s t

theorem KeptOutside.mono {w w' : List StateField} {s t : State} (h : KeptOutside w s t) (hw : w ⊆ w') :
    KeptOutside w' s t :=
  fun f hf => h f fun hm => hf (hw hm)

/-- Two writes in a row change at most what either changes. -/
theorem KeptOutside.append {w w' : List StateField} {s t u : State} (h : KeptOutside w s t) (h' : KeptOutside w' t u) :
    KeptOutside (w ++ w') s u :=
  fun f hf => (h f fun hm => hf (List.mem_append_left _ hm)).trans (h' f fun hm => hf (List.mem_append_right _ hm))

theorem keptOutside_finish (s : State) (r : Result) : KeptOutside [.out] s (finish s r) := by
  intro f hf
  cases f <;> simp_all [StateField.Kept]

theorem keptOutside_finishOb (s : State) (b : List Byte) (r : Result) :
    KeptOutside [.ob, .dataReply, .out] s (finishOb s b r) := by
  intro f hf
  cases f <;> simp_all [StateField.Kept]

theorem keptOutside_setNote (s : State) (n : Option Notification) : KeptOutside [.note] s (setNote s n) := by
  intro f hf
  cases f <;> simp_all [StateField.Kept]

theorem keptOutside_fill (s : State) (b : List Byte) : KeptOutside [.ib] s { s with ib := Memory.ofBytes b } := by
  intro f hf
  cases f <;> simp_all [StateField.Kept]

/-- The host drives the operand ports (R80). -/
theorem keptOutside_withPorts (s : State) (p : Ports) : KeptOutside [.ports] s (s.withPorts p) := by
  intro f hf
  cases f <;> simp_all [StateField.Kept]

/-- R211, step 1. -/
theorem keptOutside_nextSeq (s : State) : KeptOutside [.seq] s { s with seq := s.seq + 1 } := by
  intro f hf
  cases f <;> simp_all [StateField.Kept]

/-- R226. -/
theorem keptOutside_install (s : State) (sid : Bytes 4) (key : Bytes 16) (status : Byte) :
    KeptOutside [.key, .sid, .status] s { s with sid := sid, key := key, status := status } := by
  intro f hf
  cases f <;> simp_all [StateField.Kept]

/-! ### What the shared operations write -/

/-- A refusal stays within what an operation that writes `OB` may change (R300). -/
theorem keptOutside_refuse (s : State) (c : ResCode) : KeptOutside [.ob, .dataReply, .out] s (refuse s c) :=
  (keptOutside_finish s _).mono (by simp)

theorem openSession_writes (s : State) :
    KeptOutside [.key, .iv, .sid, .seq, .ident, .status, .out] s (openSession s) := by
  rcases openSession_cases s with ⟨_, e⟩ | ⟨_, e⟩ <;> rw [e] <;> intro f hf
  · exact keptOutside_finish s _ f (by simp_all)
  · cases f <;> simp_all [StateField.Kept]

theorem csumvfyOp_writes (s : State) : KeptOutside [.out] s (csumvfyOp s) := by
  rcases csumvfyOp_cases s with ⟨_, e⟩ | ⟨_, e⟩ <;> exact e ▸ keptOutside_finish s _

theorem helloOp_writes (s : State) : KeptOutside [.out] s (helloOp s) := by
  rcases helloOp_cases s with ⟨_, e⟩ | ⟨_, e⟩ <;> exact e ▸ keptOutside_finish s _

theorem cbcencOp_writes (s : State) : KeptOutside [.ob, .dataReply, .out] s (cbcencOp s) := by
  rcases cbcencOp_cases s with ⟨_, e⟩ | ⟨_, e⟩
  · exact e ▸ keptOutside_refuse s _
  · exact e ▸ keptOutside_finishOb s _ _

theorem cbcdecOp_writes (s : State) : KeptOutside [.ob, .dataReply, .out] s (cbcdecOp s) := by
  rcases cbcdecOp_cases s with ⟨_, e⟩ | ⟨_, e⟩
  · exact e ▸ keptOutside_refuse s _
  · exact e ▸ keptOutside_finishOb s _ _

theorem discOp_writes (s : State) : KeptOutside [.ob, .dataReply, .out] s (discOp s) := by
  rcases discOp_cases s with ⟨_, e⟩ | ⟨_, e⟩
  · exact e ▸ keptOutside_refuse s _
  · exact e ▸ keptOutside_finishOb s _ _

theorem frameOp_writes (s : State) : KeptOutside [.seq, .ob, .dataReply, .out] s (frameOp s) := by
  rcases frameOp_cases s with ⟨_, c, e⟩ | ⟨_, e⟩ <;> rw [e]
  · exact (keptOutside_refuse s c).mono (by simp)
  · exact (keptOutside_nextSeq s).append (keptOutside_finishOb _ _ _)

theorem armHandshake_writes (s : State) (rx : Received) :
    KeptOutside [.key, .sid, .status, .ob, .dataReply, .out] s (armHandshake s rx) := by
  rcases armHandshake_cases s rx with ⟨_, e⟩ | ⟨_, e⟩ <;> rw [e]
  · exact (keptOutside_finishOb s _ _).mono (by simp)
  · exact (keptOutside_install s _ _ _).append (keptOutside_finishOb _ _ _)

theorem dispatchArm_writes (s : State) (rx : Received) :
    KeptOutside [.key, .sid, .status, .ob, .dataReply, .out] s (dispatchArm s rx) := by
  rcases dispatchArm_cases s rx with ⟨_, e⟩ | ⟨_, e⟩ | ⟨_, e⟩ <;> rw [e]
  · exact armHandshake_writes s rx
  · exact (keptOutside_finishOb s _ _).mono (by simp)
  · exact (keptOutside_finishOb s _ _).mono (by simp)

/-- The receive path writes what its arm writes, besides `OB` and the result. -/
theorem receive_writes {w : List StateField} (s : State) (rcmd : Byte) {arm : State → Received → State}
    (harm : ∀ rx, KeptOutside w s (arm s rx)) (hw : [.ob, .dataReply, .out] ⊆ w) :
    KeptOutside w s (receive s rcmd arm) := by
  rcases receive_cases s rcmd arm with ⟨_, e⟩ | ⟨_, why, rerr, cmd, events, e⟩ | ⟨_, e⟩ <;> rw [e]
  · exact (keptOutside_refuse s _).mono hw
  · exact (keptOutside_finishOb s _ _).mono hw
  · exact harm _

/-! ### The rows -/

/-- The parts of the state that a row can change. -/
def writesOf : Instr → List StateField
  | .csum | .csumvfy | .hello | .opReserved _ => [.out]
  | .cbcenc | .cbcdec | .disc | .rspDataEe | .rspDataEf | .rspOther _ => [.ob, .dataReply, .out]
  | .openOp => [.key, .iv, .sid, .seq, .ident, .status, .out]
  | .frame => [.seq, .ob, .dataReply, .out]
  | .parse | .rspHs => [.key, .sid, .status, .ob, .dataReply, .out]
  | .cmdOut | .sendCode => [.ports, .seq, .ob, .dataReply, .out]
  | .payChecktemp | .paySendcode | .payEnterlearn | .payCheckdata | .payCancel | .payRfsweep | .payChecksweep
  | .payFindrf => [.ib]
  | .replyTemp | .replyCode | .replySweep | .replyRfdata | .replyOther _ => [.note]
  | .sendChecktemp | .sendEnterlearn | .sendCheckdata | .sendCancel | .sendRfsweep | .sendChecksweep
  | .sendFindrf => [.ib, .ports, .seq, .ob, .dataReply, .out]
  | .vfypkt | .vfydisc => [.ports, .out]

/-- The next state of an outcome, if it has one, keeps what is not listed. -/
def NextKept (w : List StateField) (s : State) (o : Outcome) : Prop := ∀ t, o = .next t → KeptOutside w s t

theorem nextKept_next {w : List StateField} {s t : State} (h : KeptOutside w s t) : NextKept w s (.next t) := by
  rintro _ ⟨⟩
  exact h

theorem hostFill_writes (b : List Byte) (s : State) : NextKept [.ib] s (hostFill b s) := by
  rcases hostFill_cases b s with ⟨_, e⟩ | ⟨_, e⟩ <;> rw [e]
  · exact nextKept_next (keptOutside_fill s b)
  · rintro _ ⟨⟩

/-- FRAME under the outer command byte: the host drives the ports first (R113). -/
theorem sendInput_writes (s : State) : KeptOutside [.ports, .seq, .ob, .dataReply, .out] s (sendInput s) :=
  (keptOutside_withPorts s { s.ports with op := 0x21#8, cmd := outerCommand }).append (frameOp_writes _)

theorem send_writes (b : List Byte) (s : State) :
    NextKept [.ib, .ports, .seq, .ob, .dataReply, .out] s (send b s) := by
  rcases send_cases b s with ⟨_, e⟩ | ⟨_, e⟩ <;> rw [e]
  · exact nextKept_next ((keptOutside_fill s b).append (sendInput_writes _))
  · rintro _ ⟨⟩

theorem exec_writes (s : State) : ∀ i : Instr, NextKept (writesOf i) s (exec i s)
  | .csum => nextKept_next (keptOutside_finish s _)
  | .csumvfy => nextKept_next (csumvfyOp_writes s)
  | .cbcenc => nextKept_next (cbcencOp_writes s)
  | .cbcdec => nextKept_next (cbcdecOp_writes s)
  | .openOp => nextKept_next (openSession_writes s)
  | .frame => nextKept_next (frameOp_writes s)
  | .parse => nextKept_next (receive_writes s _ (dispatchArm_writes s) (by simp [writesOf]))
  | .disc => nextKept_next (discOp_writes s)
  | .hello => nextKept_next (helloOp_writes s)
  | .opReserved _ => nextKept_next (keptOutside_finish s _)
  | .rspHs => nextKept_next (receive_writes s _ (armHandshake_writes s) (by simp [writesOf]))
  | .rspDataEe | .rspDataEf | .rspOther _ =>
    nextKept_next (receive_writes s _ (fun _ => keptOutside_finishOb s _ _) (List.Subset.refl _))
  | .cmdOut | .sendCode => nextKept_next (sendInput_writes s)
  | .payChecktemp | .paySendcode | .payEnterlearn | .payCheckdata | .payCancel | .payRfsweep | .payChecksweep
  | .payFindrf => hostFill_writes _ s
  | .replyTemp | .replyCode | .replySweep | .replyRfdata | .replyOther _ => nextKept_next (keptOutside_setNote s _)
  | .sendChecktemp | .sendEnterlearn | .sendCheckdata | .sendCancel | .sendRfsweep | .sendChecksweep
  | .sendFindrf => send_writes _ s
  | .vfypkt | .vfydisc => nextKept_next ((keptOutside_withPorts s _).append (csumvfyOp_writes _))

/-! ### Which rows write a part of the state: the table read by its columns -/

theorem cfg_not_written (i : Instr) : .cfg ∉ writesOf i := by cases i <;> simp [writesOf]

theorem queue_not_written (i : Instr) : .queue ∉ writesOf i := by cases i <;> simp [writesOf]

theorem openOp_of_iv_written {i : Instr} (h : .iv ∈ writesOf i) : i = .openOp := by
  cases i <;> simp_all [writesOf]

theorem openOp_of_ident_written {i : Instr} (h : .ident ∈ writesOf i) : i = .openOp := by
  cases i <;> simp_all [writesOf]

/-- R20, R226: the rows that can replace the key, the session id and the flags. -/
theorem session_row_of_written {i : Instr} (h : .key ∈ writesOf i ∨ .sid ∈ writesOf i ∨ .status ∈ writesOf i) :
    i ∈ [Instr.openOp, .parse, .rspHs] := by
  cases i <;> simp_all [writesOf]

theorem framing_row_of_seq_written {i : Instr} (h : .seq ∈ writesOf i) :
    i ∈ [Instr.openOp, .frame, .cmdOut, .sendCode] ∨ i ∈ sendRows.map Prod.fst := by
  cases i <;> simp_all [writesOf, sendRows]

theorem payload_row_of_ib_written {i : Instr} (h : .ib ∈ writesOf i) :
    i = .paySendcode ∨ i ∈ payRows.map Prod.fst ∨ i ∈ sendRows.map Prod.fst := by
  cases i <;> simp_all [writesOf, payRows, sendRows]

/-- The rows that report on the ports, fill `IB` or derive a notification produce no `OB`. -/
theorem ob_not_written {i : Instr}
    (hi : i ∈ [Instr.csum, .csumvfy, .openOp, .hello, .paySendcode, .vfypkt, .vfydisc] ∨ i.format = .reply ∨
      i ∈ payRows.map Prod.fst ∨ ∃ b, i = .opReserved b) :
    .dataReply ∉ writesOf i ∧ .ob ∉ writesOf i := by
  cases i <;> simp_all [writesOf, payRows, Instr.format]

theorem driven_row_of_ports_written {i : Instr} (h : .ports ∈ writesOf i) : i.format = .pseudo ∨ i = .cmdOut := by
  cases i <;> simp_all [writesOf, Instr.format]

theorem out_not_written {i : Instr} (hi : i.format = .pay16 ∨ i.format = .paycode ∨ i.format = .reply) :
    .out ∉ writesOf i := by
  cases i <;> simp_all [writesOf, Instr.format]

theorem reply_row_of_note_written {i : Instr} (h : .note ∈ writesOf i) : i.format = .reply := by
  cases i <;> simp_all [writesOf, Instr.format]

/-- Settles O54: a part of the state that a row does not list in the table stays as it was. -/
theorem rowsChangeOnlyTheirState : Obligations.RowsChangeOnlyTheirState := by
  intro i s t h
  have hkept := exec_writes s i t h
  refine ⟨hkept .cfg (cfg_not_written i), hkept .queue (queue_not_written i), fun hi => ⟨?iv, ?ident⟩,
    fun hi => ⟨?key, ?sid, ?status⟩, fun hi hsend => ?seq, fun hcode hpay hsend a => ?ib, fun hi => ?ob,
    fun hi hout => ?ports, fun hi => hkept .out (out_not_written hi), fun hi => ?note⟩
  case iv => exact hkept .iv fun hw => hi (openOp_of_iv_written hw)
  case ident => exact hkept .ident fun hw => hi (openOp_of_ident_written hw)
  case key => exact hkept .key fun hw => hi (session_row_of_written (.inl hw))
  case sid => exact hkept .sid fun hw => hi (session_row_of_written (.inr (.inl hw)))
  case status => exact hkept .status fun hw => hi (session_row_of_written (.inr (.inr hw)))
  case seq => exact hkept .seq fun hw => (framing_row_of_seq_written hw).elim hi hsend
  case ib =>
    refine congrArg (Memory.read · a) (hkept .ib fun hw => ?_)
    rcases payload_row_of_ib_written hw with h | h | h
    exacts [hcode h, hpay h, hsend h]
  case ob =>
    obtain ⟨hmark, hob⟩ := ob_not_written hi
    exact ⟨hkept .dataReply hmark, fun a => congrArg (Memory.read · a) (hkept .ob hob)⟩
  case ports => exact hkept .ports fun hw => (driven_row_of_ports_written hw).elim hi hout
  case note => exact hkept .note fun hw => hi (reply_row_of_note_written hw)

/-! ### The session registers (R22, R23, R25, R331) -/

/-- Neither a key, the initialization vector, an identity, a session id nor a flag changed. -/
def SessionKept (s t : State) : Prop :=
  t.key = s.key ∧ t.iv = s.iv ∧ t.sid = s.sid ∧ t.ident = s.ident ∧ t.status = s.status

theorem SessionKept.refl (s : State) : SessionKept s s := ⟨rfl, rfl, rfl, rfl, rfl⟩

/-- A handshake reply went through (R226): in a session, `AUTH` set, `IV` and `IDENT` kept, verdict `V_READY`. -/
def KeyInstalled (s t : State) : Prop :=
  s.opened = true ∧ t.status = setAuth s.status ∧ t.iv = s.iv ∧ t.ident = s.ident ∧
  ∃ r, t.out = some r ∧ r.verdict = some .ready

/-- OPEN went through (R204): from no session, `STATUS` 0x01, result `OK`. -/
def SessionOpened (s t : State) : Prop := s.opened = false ∧ t.status = statusOpened ∧ t.out = some { res := .ok }

theorem openSession_session (s : State) : SessionKept s (openSession s) ∨ SessionOpened s (openSession s) := by
  rcases openSession_cases s with ⟨_, e⟩ | ⟨hclosed, e⟩ <;> rw [e]
  · exact .inl (.refl _)
  · exact .inr ⟨hclosed, rfl, rfl⟩

theorem armHandshake_session (s : State) (rx : Received) (hopen : s.opened = true) :
    SessionKept s (armHandshake s rx) ∨ KeyInstalled s (armHandshake s rx) := by
  rcases armHandshake_cases s rx with ⟨_, e⟩ | ⟨_, e⟩ <;> rw [e]
  · exact .inl (.refl _)
  · exact .inr ⟨hopen, finishOb_status _ _ _, finishOb_iv _ _ _, finishOb_ident _ _ _, _, finishOb_out _ _ _, rfl⟩

theorem dispatchArm_session (s : State) (rx : Received) (hopen : s.opened = true) :
    SessionKept s (dispatchArm s rx) ∨ KeyInstalled s (dispatchArm s rx) := by
  rcases dispatchArm_cases s rx with ⟨_, e⟩ | ⟨_, e⟩ | ⟨_, e⟩ <;> rw [e]
  · exact armHandshake_session s rx hopen
  · exact .inl (.refl _)
  · exact .inl (.refl _)

theorem receive_session {s : State} (rcmd : Byte) {arm : State → Received → State}
    (harm : ∀ rx, s.opened = true → SessionKept s (arm s rx) ∨ KeyInstalled s (arm s rx)) :
    SessionKept s (receive s rcmd arm) ∨ KeyInstalled s (receive s rcmd arm) := by
  rcases receive_cases s rcmd arm with ⟨_, e⟩ | ⟨_, _, _, _, _, e⟩ | ⟨⟨hopen, _⟩, e⟩ <;> rw [e]
  · exact .inl (.refl _)
  · exact .inl (.refl _)
  · exact harm _ hopen

/-- Everything a row can do to the session registers. -/
theorem exec_session_cases {i : Instr} {s t : State} (h : exec i s = .next t) :
    SessionKept s t ∨ KeyInstalled s t ∨ (i = .openOp ∧ SessionOpened s t) := by
  by_cases hi : i ∈ [Instr.openOp, .parse, .rspHs]
  · simp only [List.mem_cons, List.not_mem_nil, or_false] at hi
    rcases hi with rfl | rfl | rfl <;> cases h
    · exact (openSession_session s).imp_right fun ho => .inr ⟨rfl, ho⟩
    · exact (receive_session _ (dispatchArm_session s)).imp_right .inl
    · exact (receive_session _ (armHandshake_session s)).imp_right .inl
  · obtain ⟨_, _, hiv, hkey, _⟩ := rowsChangeOnlyTheirState i s t h
    obtain ⟨hiv, hident⟩ := hiv (by rintro rfl; simp at hi)
    obtain ⟨hkey, hsid, hstatus⟩ := hkey hi
    exact .inl ⟨hkey, hiv, hsid, hident, hstatus⟩

theorem decodeOp_eq_openOp {b : Byte} (h : decodeOp b = .openOp) : b = 0x20#8 := by
  by_contra hb
  simp [decodeOp, hb, ite_eq_iff] at h

theorem decodeReply_ne_openOp (b : Byte) : decodeReply b ≠ .openOp := by
  simp [decodeReply, ite_eq_iff]

/-- The host issues OPEN, or performs it by its name. -/
def RequestsOpen (a : HostAction) : Prop := a = .perform .openOp ∨ ∃ p, a = .issue p ∧ p.op = 0x20#8

/-- Everything a host action but reset can do to the session registers. -/
theorem perform_session_cases {a : HostAction} {s t : State} (h : perform a s = .next t) (ha : a ≠ .reset) :
    SessionKept s t ∨ KeyInstalled s t ∨ (RequestsOpen a ∧ SessionOpened s t) := by
  rcases perform_next_cases h with
    ⟨hreset, _⟩ | ⟨_, _, _, rfl⟩ | ⟨p, rfl, _, he⟩ | ⟨i, rfl, _, he⟩ | ⟨_, rfl | ⟨param, he⟩⟩
  · exact absurd hreset ha
  · exact .inl (.refl _)
  · exact (exec_session_cases he).imp_right
      (.imp_right fun ⟨hop, ho⟩ => ⟨.inr ⟨p, rfl, decodeOp_eq_openOp hop⟩, ho⟩)
  · exact (exec_session_cases he).imp_right (.imp_right fun ⟨hop, ho⟩ => ⟨.inl (congrArg _ hop), ho⟩)
  · exact .inl (.refl _)
  · exact (exec_session_cases he).imp_right (.imp_right fun ⟨hop, _⟩ => absurd hop (decodeReply_ne_openOp param))

/-- Everything a step can do to the session registers when the host does not request reset. -/
theorem step_session_cases {s t : State} (h : step s = .next t) (hreset : ∀ rest, s.queue ≠ .reset :: rest) :
    SessionKept s t ∨ KeyInstalled s t ∨ ((∃ a rest, s.queue = a :: rest ∧ RequestsOpen a) ∧ SessionOpened s t) := by
  obtain ⟨_, ⟨_, rfl⟩ | ⟨a, rest, hq, hp⟩⟩ := step_next_cases h
  · exact .inl (.refl _)
  · exact (perform_session_cases hp (by rintro rfl; exact hreset rest hq)).imp_right
      (.imp_right fun ⟨ha, ho⟩ => ⟨⟨a, rest, hq, ha⟩, ho⟩)

/-- Settles O9: a handshake reply keeps `OPENED` and sets `AUTH`; OPEN sets `OPENED` where, by the invariant, `AUTH` was
clear. -/
theorem statusRecordsOpenAndReady : Obligations.StatusRecordsOpenAndReady := by
  intro s t hinv h hreset
  obtain ⟨_, _, _, _, ⟨_, hauth⟩, _⟩ := hinv
  rcases step_session_cases h hreset with
    ⟨_, _, _, _, hstatus⟩ | ⟨hopen, hstatus, _, _, hready⟩ | ⟨⟨a, rest, hq, ha⟩, hclosed, hstatus, hok⟩
  · have hopen : t.opened = s.opened := congrArg (BitVec.getLsbD · 0) hstatus
    have hauth : t.auth = s.auth := congrArg (BitVec.getLsbD · 1) hstatus
    exact ⟨hopen.trans, hauth.trans, fun hno hset => absurd (hset.symm.trans (hopen.trans hno)) (by decide),
      fun hno hset => absurd (hset.symm.trans (hauth.trans hno)) (by decide)⟩
  · have hopen' : t.opened = s.opened := (congrArg (BitVec.getLsbD · 0) hstatus).trans (getLsbD_zero_setAuth _)
    have hauth' : t.auth = true := (congrArg (BitVec.getLsbD · 1) hstatus).trans (getLsbD_one_setAuth _)
    exact ⟨hopen'.trans, fun _ => hauth', fun hno => absurd (hopen.symm.trans hno) (by decide), fun _ _ => hready⟩
  · have hopen' : t.opened = true := (congrArg (BitVec.getLsbD · 0) hstatus).trans (by decide)
    have hauth' : t.auth = false := (congrArg (BitVec.getLsbD · 1) hstatus).trans (by decide)
    exact ⟨fun _ => hopen', fun hset => absurd ((hauth hset).symm.trans hclosed) (by decide),
      fun _ _ => ⟨hok, a, rest, hq, ha⟩, fun _ hset => absurd (hset.symm.trans hauth') (by decide)⟩

/-- Settles O10: in an open session OPEN is refused, so what is left is a handshake reply. -/
theorem keyReplacedOnlyByReady : Obligations.KeyReplacedOnlyByReady := by
  intro s t hopen h hreset
  rcases step_session_cases h hreset with
    ⟨hkey, hiv, hsid, hident, _⟩ | ⟨_, _, hiv, hident, hready⟩ | ⟨_, hclosed, _⟩
  · exact ⟨hiv, hident, fun hne => absurd ⟨hkey, hsid⟩ (not_and_or.mpr hne)⟩
  · exact ⟨hiv, hident, fun _ => hready⟩
  · exact absurd (hopen.symm.trans hclosed) (by decide)

/-! ### `SEQ` and `IDENT` before OPEN (R26) -/

/-- `s` with other contents of `SEQ` and `IDENT`. -/
def State.withSeqIdent (s : State) (v : Half) (w : Bytes 6) : State := { s with seq := v, ident := w }

theorem withSeqIdent_ite (c : Prop) [Decidable c] (a b : State) (v : Half) (w : Bytes 6) :
    (if c then a else b).withSeqIdent v w = if c then a.withSeqIdent v w else b.withSeqIdent v w :=
  apply_ite (State.withSeqIdent · v w) c a b

theorem csumvfyOp_withSeqIdent (s : State) (v : Half) (w : Bytes 6) :
    csumvfyOp (s.withSeqIdent v w) = (csumvfyOp s).withSeqIdent v w := by
  unfold csumvfyOp
  rw [withSeqIdent_ite]
  rfl

theorem cbcencOp_withSeqIdent (s : State) (v : Half) (w : Bytes 6) :
    cbcencOp (s.withSeqIdent v w) = (cbcencOp s).withSeqIdent v w := by
  unfold cbcencOp
  rw [withSeqIdent_ite]
  rfl

theorem cbcdecOp_withSeqIdent (s : State) (v : Half) (w : Bytes 6) :
    cbcdecOp (s.withSeqIdent v w) = (cbcdecOp s).withSeqIdent v w := by
  unfold cbcdecOp
  rw [withSeqIdent_ite]
  rfl

theorem discOp_withSeqIdent (s : State) (v : Half) (w : Bytes 6) :
    discOp (s.withSeqIdent v w) = (discOp s).withSeqIdent v w := by
  unfold discOp
  rw [withSeqIdent_ite]
  rfl

theorem helloOp_withSeqIdent (s : State) (v : Half) (w : Bytes 6) :
    helloOp (s.withSeqIdent v w) = (helloOp s).withSeqIdent v w := by
  unfold helloOp
  rw [withSeqIdent_ite]
  rfl

theorem hostFill_withSeqIdent (b : List Byte) (s : State) (v : Half) (w : Bytes 6) :
    hostFill b (s.withSeqIdent v w) = mapNext (State.withSeqIdent · v w) (hostFill b s) := by
  unfold hostFill
  rw [apply_ite (mapNext (State.withSeqIdent · v w))]
  rfl

/-- R210: without a session FRAME is refused before it reads anything. -/
theorem frameOp_of_closed {s : State} (h : s.opened = false) : frameOp s = refuse s .eState := by
  simp [frameOp, h]

/-- R220: without a session PARSE is refused before it reads anything. -/
theorem receive_of_closed {s : State} (h : s.opened = false) (rcmd : Byte) (arm : State → Received → State) :
    receive s rcmd arm = refuse s .eState := by
  simp [receive, h]

theorem frameOp_withSeqIdent {s : State} (h : s.opened = false) (v : Half) (w : Bytes 6) :
    frameOp (s.withSeqIdent v w) = (frameOp s).withSeqIdent v w := by
  rw [frameOp_of_closed h, frameOp_of_closed (s := s.withSeqIdent v w) h]
  rfl

theorem receive_withSeqIdent {s : State} (h : s.opened = false) (rcmd : Byte) (arm : State → Received → State)
    (v : Half) (w : Bytes 6) :
    receive (s.withSeqIdent v w) rcmd arm = (receive s rcmd arm).withSeqIdent v w := by
  rw [receive_of_closed h, receive_of_closed (s := s.withSeqIdent v w) h]
  rfl

theorem send_withSeqIdent {s : State} (h : s.opened = false) (b : List Byte) (v : Half) (w : Bytes 6) :
    send b (s.withSeqIdent v w) = mapNext (State.withSeqIdent · v w) (send b s) := by
  unfold send
  rw [hostFill_withSeqIdent]
  rcases hostFill_cases b s with ⟨_, e⟩ | ⟨_, e⟩ <;> rw [e]
  · exact congrArg _ (frameOp_withSeqIdent (s := driveFrame outerCommand { s with ib := Memory.ofBytes b }) h v w)
  · rfl

/-- R204: OPEN loads both registers from its operands. -/
theorem openSession_withSeqIdent {s : State} (h : s.opened = false) (v : Half) (w : Bytes 6) :
    openSession (s.withSeqIdent v w) = openSession s := by
  have h' : (s.withSeqIdent v w).opened = false := h
  simp only [openSession, h, h']
  rfl

theorem exec_withSeqIdent {s : State} (h : s.opened = false) (v : Half) (w : Bytes 6) :
    ∀ i : Instr, i ≠ .openOp → exec i (s.withSeqIdent v w) = mapNext (State.withSeqIdent · v w) (exec i s)
  | .openOp, hi => absurd rfl hi
  | .csum, _ | .opReserved _, _ => rfl
  | .csumvfy, _ => congrArg _ (csumvfyOp_withSeqIdent s v w)
  | .cbcenc, _ => congrArg _ (cbcencOp_withSeqIdent s v w)
  | .cbcdec, _ => congrArg _ (cbcdecOp_withSeqIdent s v w)
  | .disc, _ => congrArg _ (discOp_withSeqIdent s v w)
  | .hello, _ => congrArg _ (helloOp_withSeqIdent s v w)
  | .frame, _ => congrArg _ (frameOp_withSeqIdent h v w)
  | .parse, _ | .rspHs, _ | .rspDataEe, _ | .rspDataEf, _ | .rspOther _, _ =>
    congrArg _ (receive_withSeqIdent h _ _ v w)
  | .cmdOut, _ | .sendCode, _ => congrArg _ (frameOp_withSeqIdent (s := driveFrame outerCommand s) h v w)
  | .payChecktemp, _ | .paySendcode, _ | .payEnterlearn, _ | .payCheckdata, _ | .payCancel, _ | .payRfsweep, _
  | .payChecksweep, _ | .payFindrf, _ => hostFill_withSeqIdent _ s v w
  | .replyTemp, _ | .replyCode, _ | .replySweep, _ | .replyRfdata, _ | .replyOther _, _ => rfl
  | .sendChecktemp, _ | .sendEnterlearn, _ | .sendCheckdata, _ | .sendCancel, _ | .sendRfsweep, _
  | .sendChecksweep, _ | .sendFindrf, _ => send_withSeqIdent h _ v w
  | .vfypkt, _ => congrArg _ (csumvfyOp_withSeqIdent (driveCsumvfy s.cfg.offPktcs s) v w)
  | .vfydisc, _ => congrArg _ (csumvfyOp_withSeqIdent (driveCsumvfy s.cfg.discOffCs s) v w)

/-- Settles O57: OPEN overwrites both registers; every other row without a session reads neither. -/
theorem seqAndIdentUnreadBeforeOpen : Obligations.SeqAndIdentUnreadBeforeOpen := by
  intro i s v w h
  by_cases hi : i = .openOp
  · subst hi
    exact congrArg Host.Outcome.next (openSession_withSeqIdent h v w)
  · simp only [if_neg hi]
    exact exec_withSeqIdent h v w i hi

end Sys2Proof.Machine

/-! PROOFS. The key and session id of a handshake reply are those of the next FRAME (O45): what the packet carries of the
session registers, and what a PARSE with verdict `V_READY` leaves in them. -/

namespace Sys2Proof.Machine

/-! ### The ciphertext and the session id of a command packet (R60, R61, R95) -/

theorem drop_put16le {b : List Byte} {o n : Nat} (h : o + 2 ≤ n) (v : Half) :
    (put16le b o v).drop n = b.drop n := by
  rw [put16le, putByte, putByte, List.drop_set_of_lt (by omega), List.drop_set_of_lt (by omega)]

theorem byteAt_append_left {a b : List Byte} {o : Nat} (h : o < a.length) : byteAt (a ++ b) o = byteAt a o := by
  rw [byteAt, byteAt, List.getD_append _ _ _ _ h]

/-- R9: the checksum fields lie in the header, outside the session id. -/
theorem sid_field_apart {c : Cfg} (hw : c.WellFormed) :
    c.offSid + 4 ≤ 56 ∧ c.offPktcs + 2 ≤ 56 ∧ Disjoint2 (c.offPktcs, 2) (c.offSid, 4) ∧
    Disjoint2 (c.offSid, 4) (c.offPaycs, 2) := by
  obtain ⟨hbound, hapart, _⟩ := hw
  simp only [Cfg.cmdFields, List.pairwise_cons, List.forall_mem_cons] at hbound hapart
  obtain ⟨hpktcs, _, _, _, hsid, _⟩ := hbound
  obtain ⟨⟨_, _, _, hpktcsSid, _⟩, _, _, _, ⟨hsidPaycs, _⟩, _⟩ := hapart
  exact ⟨hsid, hpktcs, hpktcsSid, hsidPaycs⟩

theorem drop_packetOf {s : State} (hw : s.cfg.WellFormed) : (packetOf s).drop 56 = cbcEnc s.key s.iv s.input := by
  obtain ⟨_, hpktcs, _⟩ := sid_field_apart hw
  rw [packetOf, framePacket, sealChecksum, drop_put16le hpktcs]
  exact List.drop_left' (length_frameHeader ..)

theorem byteAt_frameHeader_sid {c : Cfg} (hw : c.WellFormed) (cmd : Byte) (seq : Half) (ident : Bytes 6)
    (sid : Bytes 4) (payload : List Byte) {j : Nat} (hj : j < 4) :
    byteAt (frameHeader c cmd seq ident sid payload) (c.offSid + j) = byteAt sid.toList j := by
  obtain ⟨hsid, _, _, hpaycs⟩ := sid_field_apart hw
  rw [frameHeader, byteAt_put16le_outside _ _ _ _ (by simp only [InRange]; omega)]
  exact byteAt_putBytes_inside _ _ _ _ (by simpa using hsid) (by simpa using hj)

theorem byteAt_packetOf_sid {s : State} (hw : s.cfg.WellFormed) {j : Nat} (hj : j < 4) :
    byteAt (packetOf s) (s.cfg.offSid + j) = byteAt s.sid.toList j := by
  obtain ⟨hsid, _, hpktcs, _⟩ := sid_field_apart hw
  rw [packetOf, framePacket, sealChecksum, byteAt_put16le_outside _ _ _ _ (by simp only [InRange]; omega),
    byteAt_append_left (by rw [length_frameHeader]; omega), byteAt_frameHeader_sid hw _ _ _ _ _ hj]

/-- R87: the session id of a handshake payload is its first four bytes. -/
theorem byteAt_handshakeSid (pt : List Byte) {j : Nat} (hj : j < 4) :
    byteAt (handshakeSid pt).toList j = byteAt pt j := by
  simp [handshakeSid, toBytes, slice, byteAt, hj]

/-! ### The session after `V_READY` (R66, R226) -/

/-- `t` is an open session under the configuration and initialization vector of `s`, with the key and session id of the
handshake payload that stands in its `OB`. -/
def InstalledFromOutput (s t : State) : Prop :=
  t.cfg = s.cfg ∧ t.iv = s.iv ∧ t.opened = true ∧ t.key = handshakeKey s.cfg t.output ∧ t.sid = handshakeSid t.output

/-- The result of `t`, if it has one, does not report `V_READY`. -/
def NotReady (t : State) : Prop := ∀ r, t.out = some r → r.verdict ≠ some .ready

theorem notReady_of_out {t : State} {r : Result} (ht : t.out = some r) (hr : r.verdict ≠ some .ready) : NotReady t := by
  intro r' ht'
  exact Option.some.inj (ht.symm.trans ht') ▸ hr

theorem armHandshake_installs {s : State} (hopen : s.opened = true) (rx : Received) :
    NotReady (armHandshake s rx) ∨ InstalledFromOutput s (armHandshake s rx) := by
  rcases armHandshake_cases s rx with ⟨_, e⟩ | ⟨_, e⟩ <;> rw [e]
  · exact .inl (notReady_of_out (finishOb_out ..) (by simp))
  · refine .inr ⟨rfl, rfl, (getLsbD_zero_setAuth s.status).trans hopen, ?_, ?_⟩ <;>
      simp [parseDone, State.output]

theorem dispatchArm_installs {s : State} (hopen : s.opened = true) (rx : Received) :
    NotReady (dispatchArm s rx) ∨ InstalledFromOutput s (dispatchArm s rx) := by
  rcases dispatchArm_cases s rx with ⟨_, e⟩ | ⟨_, e⟩ | ⟨_, e⟩ <;> rw [e]
  · exact armHandshake_installs hopen rx
  · exact .inl (notReady_of_out (finishOb_out ..) (by simp))
  · exact .inl (notReady_of_out (finishOb_out ..) (by simp))

/-- Only the handshake arm of PARSE reports `V_READY`, and then it has installed the new key and session id. -/
theorem parse_installs {s t : State} (h : exec .parse s = .next t) : NotReady t ∨ InstalledFromOutput s t := by
  cases h
  rcases receive_cases s (commandByte s.cfg s.input) dispatchArm with
    ⟨_, e⟩ | ⟨_, _, _, _, _, e⟩ | ⟨⟨hopen, _⟩, e⟩ <;> rw [e]
  · exact .inl (notReady_of_out (refuse_out ..) (by simp))
  · exact .inl (notReady_of_out (finishOb_out ..) (by simp))
  · exact dispatchArm_installs hopen _

/-! ### The next FRAME -/

theorem frameReady_fill {s : State} {b : List Byte} (hopen : s.opened = true) (ha : Aligned b)
    (hlen : hdrLen + b.length ≤ s.cfg.maxDgram) : State.FrameReady { s with ib := Memory.ofBytes b } := by
  rw [State.FrameReady, State.input, bytes_ofBytes]
  exact ⟨hopen, ha, hlen⟩

/-- R211: a FRAME that goes through enciphers `IB` under the `KEY` and `IV` before it, and carries the `SID` before it. -/
theorem exec_frame_carries_session {s : State} (hw : s.cfg.WellFormed) (h : s.FrameReady) : ∃ u : State,
    exec .frame s = .next u ∧ u.output.drop 56 = cbcEnc s.key s.iv s.input ∧
    ∀ j < 4, byteAt u.output (s.cfg.offSid + j) = byteAt s.sid.toList j := by
  refine ⟨_, congrArg Host.Outcome.next (frameOp_eq_of_ready s h), ?_⟩
  rw [State.output, finishOb_ob, bytes_ofBytes]
  exact ⟨drop_packetOf hw, fun j => byteAt_packetOf_sid hw⟩

/-- Settles O45: the next FRAME builds its packet from the registers that the handshake reply installed. -/
theorem keySwitchIsVisibleAtOnce : Obligations.KeySwitchIsVisibleAtOnce := by
  intro s t r b hw hparse hout hready halign hfits
  obtain ⟨hcfg, hiv, hopen, hkey, hsid⟩ := (parse_installs hparse).resolve_left fun hno => hno r hout hready
  rw [← hcfg] at hw hfits
  obtain ⟨u, hu, hcipher, hsidBytes⟩ := exec_frame_carries_session (s := { t with ib := Memory.ofBytes b }) hw
    (frameReady_fill hopen halign hfits)
  refine ⟨u, hu, ?_, fun j hj => ?_⟩
  · calc u.output.drop 56
        = cbcEnc t.key t.iv (Memory.ofBytes b).bytes := hcipher
      _ = cbcEnc (handshakeKey s.cfg t.output) s.iv b := by rw [hkey, hiv, bytes_ofBytes]
  · calc byteAt u.output (s.cfg.offSid + j)
        = byteAt t.sid.toList j := hcfg ▸ hsidBytes j hj
      _ = byteAt t.output j := by rw [hsid, byteAt_handshakeSid _ hj]

end Sys2Proof.Machine

/-! PROOFS. Decoding and encoding agree both ways in every format (O1, O2, O3); the reserved operation numbers (O53); the
response command bytes that PARSE does not know (O41). -/

namespace Sys2Proof

/-! ### The rows that stand for a class of bytes (R101, R104, R106) -/

theorem wf_opReserved_iff {b : Byte} : (Instr.opReserved b).wf = true ↔ b ∉ definedOps := by simp [Instr.wf]

theorem wf_rspOther_iff {b : Byte} : (Instr.rspOther b).wf = true ↔ b ∉ definedRspCmds := by simp [Instr.wf]

theorem wf_replyOther_iff {b : Byte} : (Instr.replyOther b).wf = true ↔ b ∉ definedReplyParams := by simp [Instr.wf]

theorem decodeOp_of_notMem {b : Byte} (h : b ∉ definedOps) : decodeOp b = .opReserved b :=
  Option.some.inj (Laws.Encoding.opReserved b (wf_opReserved_iff.mpr h))

theorem decodeRsp_of_notMem {b : Byte} (h : b ∉ definedRspCmds) : decodeRsp b = .rspOther b :=
  Option.some.inj (Laws.Encoding.rspOther b (wf_rspOther_iff.mpr h))

theorem decodeReply_of_notMem {b : Byte} (h : b ∉ definedReplyParams) : decodeReply b = .replyOther b :=
  Option.some.inj (Laws.Encoding.replyOther b (wf_replyOther_iff.mpr h))

/-! ### The row that a byte decodes to -/

/-- `i` is a row of format `f` with the byte `b`: the row exists, belongs to `f` and is encoded by `b`. -/
abbrev IsRowOf (f : Format) (b : Byte) (i : Instr) : Prop := i.wf = true ∧ i.format = f ∧ encode i = b

theorem isRowOf_decodeOp (b : Byte) : IsRowOf .op b (decodeOp b) := by
  by_cases h : b ∈ definedOps
  · have hlisted : ∀ b ∈ definedOps, IsRowOf .op b (decodeOp b) := by decide
    exact hlisted b h
  · rw [decodeOp_of_notMem h]
    exact ⟨wf_opReserved_iff.mpr h, rfl, rfl⟩

theorem isRowOf_decodeRsp (b : Byte) : IsRowOf .rspcmd b (decodeRsp b) := by
  by_cases h : b ∈ definedRspCmds
  · have hlisted : ∀ b ∈ definedRspCmds, IsRowOf .rspcmd b (decodeRsp b) := by decide
    exact hlisted b h
  · rw [decodeRsp_of_notMem h]
    exact ⟨wf_rspOther_iff.mpr h, rfl, rfl⟩

theorem isRowOf_decodeReply (b : Byte) : IsRowOf .reply b (decodeReply b) := by
  by_cases h : b ∈ definedReplyParams
  · have hlisted : ∀ b ∈ definedReplyParams, IsRowOf .reply b (decodeReply b) := by decide
    exact hlisted b h
  · rw [decodeReply_of_notMem h]
    exact ⟨wf_replyOther_iff.mpr h, rfl, rfl⟩

/-- R103, R108: only the seven listed codes of a 16-byte payload have a row. -/
theorem mem_payRows_of_decodePay16 {b : Byte} {i : Instr} (h : decodePay16 b = some i) :
    (i, b) ∈ Machine.payRows := by
  unfold decodePay16 at h
  split_ifs at h <;> cases h <;> subst b <;> decide

theorem isRowOf_of_mem_payRows : ∀ row ∈ Machine.payRows, IsRowOf .pay16 row.2 row.1 := by decide

/-- What a byte decodes to is a row of its format with that byte. -/
theorem isRowOf_of_decodeIn {f : Format} {b : Byte} {i : Instr} (hf : f ≠ .pseudo) (h : decodeIn f b = some i) :
    IsRowOf f b i := by
  cases f with
  | op => exact Option.some.inj h ▸ isRowOf_decodeOp b
  | rspcmd => exact Option.some.inj h ▸ isRowOf_decodeRsp b
  | reply => exact Option.some.inj h ▸ isRowOf_decodeReply b
  | pay16 => exact isRowOf_of_mem_payRows (i, b) (mem_payRows_of_decodePay16 h)
  | cmdpkt =>
    obtain ⟨rfl, rfl⟩ : b = 0x6a#8 ∧ Instr.cmdOut = i := by simpa [decodeIn] using h
    exact ⟨rfl, rfl, rfl⟩
  | paycode =>
    obtain ⟨rfl, rfl⟩ : b = 0x02#8 ∧ Instr.paySendcode = i := by simpa [decodeIn] using h
    exact ⟨rfl, rfl, rfl⟩
  | pseudo => exact absurd rfl hf

/-! ### The byte of a row decodes back -/

/-- The laws of the rows, put together. -/
theorem decodeIn_encode {i : Instr} (h : i.wf = true) : decodeIn i.format (encode i) = some i.core := by
  cases i
  case opReserved op => exact Laws.Encoding.opReserved op h
  case rspOther rcmd => exact Laws.Encoding.rspOther rcmd h
  case replyOther param => exact Laws.Encoding.replyOther param h
  all_goals rfl

/-- Only a pseudo-operation expands to another row. -/
theorem core_eq_self {i : Instr} (h : i.format ≠ .pseudo) : i.core = i := by
  cases i <;> simp_all [Instr.core, Instr.format]

theorem wf_of_pseudo {i : Instr} (h : i.format = .pseudo) : i.wf = true := by
  cases i <;> simp_all [Instr.wf, Instr.format]

/-- R113: a pseudo-operation expands to an operation of the block. -/
theorem format_core_of_pseudo {i : Instr} (h : i.format = .pseudo) : i.core.format = .op := by
  cases i <;> simp_all [Instr.core, Instr.format]

/-! ### The statements -/

/-- Settles O1: a decoded row has the byte it was decoded from, and a row's byte decodes to the row's expansion, which
is the row itself outside the pseudo-operations. -/
theorem rowByteDecodesToItsRow : Obligations.RowByteDecodesToItsRow := by
  refine ⟨fun f b i hf => ⟨isRowOf_of_decodeIn hf, ?_⟩, fun i hp => ⟨?_, format_core_of_pseudo hp⟩⟩
  · rintro ⟨hwf, rfl, rfl⟩
    rw [decodeIn_encode hwf, core_eq_self hf]
  · exact hp ▸ decodeIn_encode (wf_of_pseudo hp)

/-- Settles O2, format by format. -/
theorem everyByteDecodesToAWellFormedRow : Obligations.EveryByteDecodesToAWellFormedRow :=
  fun b => ⟨isRowOf_decodeOp b, isRowOf_decodeRsp b, isRowOf_decodeReply b⟩

/-- Settles O3: fifteen closed equations, evaluated. -/
theorem specBytesDecode : Obligations.SpecBytesDecode := by
  unfold Obligations.SpecBytesDecode
  decide

/-- Settles O53: the reserved row refuses in every state. -/
theorem reservedNumbersAreRefused : Obligations.ReservedNumbersAreRefused :=
  fun _ h => ⟨decodeOp_of_notMem h, fun _ => rfl⟩

end Sys2Proof

namespace Sys2Proof.Machine

/-- R221, R225: a PARSE that passes the checks is its dispatch, on what the datagram holds. -/
theorem exec_parse_of_ready {s : State} (h : s.ParseReady) : exec .parse s =
    .next (dispatchArm s ⟨errorCode s.cfg s.input, commandByte s.cfg s.input, s.plaintext⟩) :=
  congrArg Host.Outcome.next (receive_of_ready s _ dispatchArm h)

/-- R228. -/
theorem dispatchArm_of_unknown (s : State) {rx : Received} (h : rx.rcmd ∉ definedRspCmds) :
    dispatchArm s rx = armUnknown s rx := by
  rcases dispatchArm_cases s rx with ⟨hhs, _⟩ | ⟨hdata, _⟩ | ⟨_, e⟩
  · exact absurd (by simp [definedRspCmds, hhs]) h
  · exact absurd (by rcases hdata with hd | hd <;> simp [definedRspCmds, hd]) h
  · exact e

/-- Settles O41: the dispatch falls through to its last arm. -/
theorem unknownCommandIsReported : Obligations.UnknownCommandIsReported := by
  rintro s _ rfl hhs hee hef hready
  have hunknown : commandByte s.cfg s.input ∉ definedRspCmds := by simp [definedRspCmds, hhs, hee, hef]
  rw [exec_parse_of_ready hready, dispatchArm_of_unknown s hunknown]
  rfl

end Sys2Proof.Machine

/-! PROOFS. The checksum in closed form and its laws (O11, O12), what CSUM and CSUMVFY return (O13, O14), and that the packets
FRAME and DISC seal pass CSUMVFY (O35, O36). -/

namespace Sys2Proof.Machine

/-! ### The sum of a byte sequence (R120) -/

@[simp] theorem sumBytes_nil : sumBytes [] = 0 := rfl

@[simp] theorem sumBytes_cons (x : Byte) (xs : List Byte) : sumBytes (x :: xs) = x.toNat + sumBytes xs := by
  simp [sumBytes]

@[simp] theorem sumBytes_append (a b : List Byte) : sumBytes (a ++ b) = sumBytes a + sumBytes b := by
  simp [sumBytes]

theorem sumBytes_perm {a b : List Byte} (h : a.Perm b) : sumBytes a = sumBytes b := (h.map BitVec.toNat).sum_eq

/-- A write takes the old byte out of the sum and puts the new one in. -/
theorem sumBytes_putByte (v : Byte) : ∀ (b : List Byte) (o : Nat), o < b.length →
    sumBytes (putByte b o v) + (byteAt b o).toNat = sumBytes b + v.toNat := by
  intro b
  induction b with
  | nil => intro o h; simp at h
  | cons x xs ih =>
    intro o h
    cases o with
    | zero => simp only [putByte, byteAt, List.set_cons_zero, List.getD_cons_zero, sumBytes_cons]; omega
    | succ o =>
      have htail := ih o (by simpa using h)
      simp only [putByte, byteAt, List.set_cons_succ, List.getD_cons_succ, sumBytes_cons] at htail ⊢
      omega

/-! ### The checksum in closed form (R120 to R122) -/

/-- R121: the accumulator after the bytes of `b` is where it began plus their sum, the carries discarded. -/
theorem foldl_add_eq_sumBytes (b : List Byte) : ∀ acc : Half,
    b.foldl (fun acc x => acc + x.setWidth 16) acc = acc + BitVec.ofNat 16 (sumBytes b) := by
  induction b with
  | nil => intro acc; simp
  | cons x xs ih =>
    intro acc
    rw [List.foldl_cons, ih, sumBytes_cons, BitVec.ofNat_add, BitVec.ofNat_toNat, BitVec.add_assoc]

theorem csum_eq (b : List Byte) : csum b = csumSeed + BitVec.ofNat 16 (sumBytes b) :=
  foldl_add_eq_sumBytes b csumSeed

theorem toNat_csum (b : List Byte) : (csum b).toNat = (0xBEAF + sumBytes b) % 65536 := by
  simp [csum_eq, csumSeed]

/-- Settles O11, by induction on the bytes with the accumulator left general. -/
theorem csumIsSeedPlusSum : Obligations.CsumIsSeedPlusSum := toNat_csum

theorem csum_append (a b : List Byte) : csum (a ++ b) = csum a + csum b - csumSeed := by
  simp only [csum_eq, sumBytes_append, BitVec.ofNat_add]
  ring

theorem csum_perm {a b : List Byte} (h : a.Perm b) : csum a = csum b := by
  rw [csum_eq, csum_eq, sumBytes_perm h]

theorem csum_insert_zero (a b : List Byte) : csum (a ++ 0x00#8 :: b) = csum (a ++ b) := by
  simp [csum_eq]

theorem csum_putByte {b : List Byte} {o : Nat} (v : Byte) (h : o < b.length) :
    csum (putByte b o v) = csum b - (byteAt b o).setWidth 16 + v.setWidth 16 := by
  have hsum := congrArg (BitVec.ofNat 16) (sumBytes_putByte v b o h)
  simp only [BitVec.ofNat_add, BitVec.ofNat_toNat] at hsum
  rw [csum_eq, csum_eq]
  linear_combination hsum

/-- Settles O12: each law is a law of the sum. -/
theorem csumLaws : Obligations.CsumLaws :=
  ⟨rfl, csum_append, fun _ _ => csum_perm, csum_insert_zero, fun _ _ => csum_putByte⟩

/-- Settles O13: CSUM is `csum` of `IB` on the port `val16`. -/
theorem csumReturnsTheChecksum : Obligations.CsumReturnsTheChecksum :=
  fun s => ⟨csum s.input, toNat_csum s.input, rfl⟩

/-! ### CSUMVFY (R127) -/

/-- R14: the value of a 16-bit field, by its bytes. -/
theorem toNat_le16 (b : List Byte) (o : Nat) :
    (le16 b o).toNat = (byteAt b o).toNat + 256 * (byteAt b (o + 1)).toNat := by
  simp only [le16, BitVec.toNat_add, BitVec.toNat_mul, BitVec.toNat_setWidth, show (256 : Half).toNat = 256 from rfl]
  omega

theorem beq_le16 (v : Half) (b : List Byte) (o : Nat) :
    (v == le16 b o) = decide (v.toNat = (byteAt b o).toNat + 256 * (byteAt b (o + 1)).toNat) := by
  rw [← toNat_le16, Bool.eq_iff_iff, beq_iff_eq, decide_eq_true_iff, BitVec.toNat_inj]

/-- R300: a field past the end of `IB`. -/
theorem csumvfyOp_of_outside {s : State} (h : s.input.length < s.ports.off + 2) :
    csumvfyOp s = refuse s .eRange := by
  rcases csumvfyOp_cases s with ⟨_, e⟩ | ⟨hin, _⟩
  · exact e
  · omega

theorem csumvfyOp_of_inside {s : State} (h : s.ports.off + 2 ≤ s.input.length) : csumvfyOp s = s.withOut
    { res := .ok, val16 := some (csumZeroed s.input s.ports.off),
      okFlag := some (csumZeroed s.input s.ports.off == le16 s.input s.ports.off) } := by
  rcases csumvfyOp_cases s with ⟨hout, _⟩ | ⟨_, e⟩
  · omega
  · exact e

/-- Settles O14: the two cases of CSUMVFY, with the checksum and the stored value as natural numbers. -/
theorem csumvfyChecksTheStoredField : Obligations.CsumvfyChecksTheStoredField := by
  refine fun s => ⟨fun hin => ⟨csumZeroed s.input s.ports.off, toNat_csum _, ?_⟩, fun hout => ?_⟩
  · rw [← beq_le16, ← csumvfyOp_of_inside hin]
    rfl
  · exact congrArg Host.Outcome.next (csumvfyOp_of_outside hout)

/-! ### Sealed packets verify (R128) -/

/-- R95, R128: CSUMVFY accepts a field that `sealChecksum` filled: zeroed again it gives the checksum it was filled with. -/
theorem csumvfyOp_of_sealed {s : State} {b : List Byte} {o : Nat} (hoff : s.ports.off = o)
    (hin : s.input = sealChecksum b o) (hfit : o + 2 ≤ b.length) :
    csumvfyOp s = s.withOut { res := .ok, val16 := some (csumZeroed b o), okFlag := some true } := by
  subst hoff
  have hzero : csumZeroed s.input s.ports.off = csumZeroed b s.ports.off := by
    rw [hin, sealChecksum, csumZeroed, zero16_put16le, csumZeroed]
  have hstored : le16 s.input s.ports.off = csumZeroed b s.ports.off := by
    rw [hin, sealChecksum, le16_put16le _ _ _ hfit]
  rw [csumvfyOp_of_inside (by simpa [hin] using hfit), hzero, hstored, beq_self_eq_true]

/-- Settles O35: FRAME ends by sealing its packet at `OFF_PKTCS`, which lies in the 56 bytes of the header. -/
theorem framedPacketVerifies : Obligations.FramedPacketVerifies := by
  intro s hw hready
  obtain ⟨_, hpktcs, _⟩ := sid_field_apart hw
  have hsealed : (Memory.ofBytes (packetOf s)).bytes = packetOf s := bytes_ofBytes _
  have hfit : s.cfg.offPktcs + 2 ≤ (frameHeader s.cfg s.ports.cmd (s.seq + 1) s.ident s.sid s.input ++
      cbcEnc s.key s.iv s.input).length := by
    rw [List.length_append, length_frameHeader]; omega
  exact ⟨_, _, _, _, congrArg Host.Outcome.next (frameOp_eq_of_ready s hready),
    congrArg Host.Outcome.next (csumvfyOp_of_sealed rfl hsealed hfit), rfl, rfl, rfl,
    congrArg Host.Outcome.next (csumvfyOp_of_sealed rfl hsealed hfit), rfl⟩

theorem discOp_of_length {s : State} (h : s.input.length = discLen) :
    discOp s = finishOb s (sealChecksum s.input s.cfg.discOffCs) { res := .ok } := by
  rcases discOp_cases s with ⟨hne, _⟩ | ⟨_, e⟩
  · exact absurd h hne
  · exact e

/-- Settles O36: DISC seals the image at `DISC_OFF_CS`, which lies in its 48 bytes. -/
theorem discoveryPacketVerifies : Obligations.DiscoveryPacketVerifies := by
  intro s hw hlen
  obtain ⟨_, _, _, _, _, _, hdisc, _⟩ := hw
  have hsealed : (Memory.ofBytes (sealChecksum s.input s.cfg.discOffCs)).bytes =
      sealChecksum s.input s.cfg.discOffCs := bytes_ofBytes _
  have hfit : s.cfg.discOffCs + 2 ≤ s.input.length := hlen.symm ▸ hdisc
  exact ⟨_, _, _, _, congrArg Host.Outcome.next (discOp_of_length hlen),
    congrArg Host.Outcome.next (csumvfyOp_of_sealed rfl hsealed hfit), rfl, rfl, rfl,
    congrArg Host.Outcome.next (csumvfyOp_of_sealed rfl hsealed hfit), rfl⟩

end Sys2Proof.Machine

/-! PROOFS. Arithmetic in GF(2^8) and the tables (O15, O16, O17). `mul` is additive in each argument and commutes with
`xtime`, and every byte is a sum of `xtime^i(1)` for `i < 8`; so a law of `mul` need only be seen on those eight bytes. -/

namespace Sys2Proof.Machine

/-! ### `xtime` (R143) -/

theorem xtime_eq_ite (a : Byte) : xtime a = if a.getLsbD 7 then (a <<< 1) ^^^ 0x1B#8 else a <<< 1 := by
  rw [xtime]; split <;> simp

theorem xtime_xor (a b : Byte) : xtime (a ^^^ b) = xtime a ^^^ xtime b := by
  have hreduce : (if (a ^^^ b).getLsbD 7 then 0x1B else 0x00 : Byte) =
      (if a.getLsbD 7 then 0x1B else 0x00) ^^^ (if b.getLsbD 7 then 0x1B else 0x00) := by
    rw [BitVec.getLsbD_xor]
    cases a.getLsbD 7 <;> cases b.getLsbD 7 <;> rfl
  rw [xtime, hreduce, BitVec.shiftLeft_xor_distrib, xtime, xtime]
  ac_rfl

theorem xtimes_xor (i : Nat) (a b : Byte) : xtimes i (a ^^^ b) = xtimes i a ^^^ xtimes i b := by
  induction i with
  | zero => rfl
  | succ i ih => simp only [xtimes, ih, xtime_xor]

theorem xtimes_xtimes (i j : Nat) (a : Byte) : xtimes i (xtimes j a) = xtimes (i + j) a := by
  induction i with
  | zero => rw [Nat.zero_add]; rfl
  | succ i ih => rw [Nat.succ_add]; exact congrArg xtime ih

@[simp] theorem xtimes_zero_byte (i : Nat) : xtimes i 0#8 = 0#8 := by
  induction i with
  | zero => rfl
  | succ i ih => rw [xtimes, ih]; rfl

/-- A single bit is a power of `xtime` of 1: there is nothing to reduce below bit 8. -/
theorem bit_eq_xtimes : ∀ i < 8, 1#8 <<< i = xtimes i 1#8 := by decide

/-! ### `mul` as a sum of terms, one for each bit (R143) -/

/-- The term of `mul(a, b)` at bit `i` of `b`. -/
def bitTerm (a b : Byte) (i : Nat) : Byte := if b.getLsbD i then xtimes i a else 0#8

/-- The XOR of the values of `f` on a list. -/
def xorOver (f : Nat → Byte) : List Nat → Byte
  | [] => 0#8
  | i :: l => f i ^^^ xorOver f l

theorem xorOver_xor (f g : Nat → Byte) (l : List Nat) :
    xorOver (fun i => f i ^^^ g i) l = xorOver f l ^^^ xorOver g l := by
  induction l with
  | nil => simp [xorOver]
  | cons i l ih => simp only [xorOver, ih]; ac_rfl

theorem foldl_bitTerm (a b : Byte) (l : List Nat) : ∀ acc : Byte,
    l.foldl (fun acc i => if b.getLsbD i then acc ^^^ xtimes i a else acc) acc = acc ^^^ xorOver (bitTerm a b) l := by
  induction l with
  | nil => simp [xorOver]
  | cons i l ih => intro acc; cases hi : b.getLsbD i <;> simp [xorOver, bitTerm, hi, ih, BitVec.xor_assoc]

theorem mul_eq_xorOver (a b : Byte) : mul a b = xorOver (bitTerm a b) (List.range 8) :=
  (foldl_bitTerm a b _ _).trans BitVec.zero_xor

theorem gf_mul_xor (a b c : Byte) : mul a (b ^^^ c) = mul a b ^^^ mul a c := by
  have hterm : bitTerm a (b ^^^ c) = fun i => bitTerm a b i ^^^ bitTerm a c i := by
    funext i
    cases hb : b.getLsbD i <;> cases hc : c.getLsbD i <;> simp [bitTerm, hb, hc]
  simp only [mul_eq_xorOver, hterm, xorOver_xor]

theorem gf_xor_mul (a b c : Byte) : mul (a ^^^ b) c = mul a c ^^^ mul b c := by
  have hterm : bitTerm (a ^^^ b) c = fun i => bitTerm a c i ^^^ bitTerm b c i := by
    funext i
    cases hc : c.getLsbD i <;> simp [bitTerm, hc, xtimes_xor]
  simp only [mul_eq_xorOver, hterm, xorOver_xor]

@[simp] theorem gf_mul_zero (a : Byte) : mul a 0#8 = 0#8 := by simpa using gf_mul_xor a 0#8 0#8

@[simp] theorem gf_zero_mul (a : Byte) : mul 0#8 a = 0#8 := by simpa using gf_xor_mul 0#8 0#8 a

theorem mul_xtimes_one (a : Byte) {i : Nat} (h : i < 8) : mul a (xtimes i 1#8) = xtimes i a := by
  rw [← bit_eq_xtimes i h, mul_eq_xorOver]
  interval_cases i <;> simp [xorOver, bitTerm, List.range_succ]

@[simp] theorem gf_mul_one (a : Byte) : mul a 1#8 = a := mul_xtimes_one a (i := 0) (by decide)

/-- `mul(1, a)` is the sum of the bits of `a`. -/
@[simp] theorem gf_one_mul : ∀ a : Byte, mul 1#8 a = a := by decide +kernel

/-! ### The laws of `mul` (R143) -/

/-- What holds of 0 and of each `xtime^i(1)`, and of a sum where it holds of both summands, holds of every byte. -/
theorem byte_induction {P : Byte → Prop} (zero : P 0#8) (gen : ∀ i < 8, P (xtimes i 1#8))
    (xor : ∀ a b, P a → P b → P (a ^^^ b)) (b : Byte) : P b := by
  rw [← gf_one_mul b]
  refine List.foldlRecOn _ _ zero fun acc hacc i hi => ?_
  split
  · exact xor _ _ hacc (gen i (List.mem_range.1 hi))
  · exact hacc

theorem mul_xtimes_left (k : Nat) (a b : Byte) : mul (xtimes k a) b = xtimes k (mul a b) := by
  induction b using byte_induction with
  | zero => simp
  | gen i hi => rw [mul_xtimes_one _ hi, mul_xtimes_one _ hi, xtimes_xtimes, xtimes_xtimes, Nat.add_comm]
  | xor b c hb hc => rw [gf_mul_xor, gf_mul_xor, xtimes_xor, hb, hc]

theorem gf_mul_comm (a b : Byte) : mul a b = mul b a := by
  induction b using byte_induction with
  | zero => simp
  | gen i hi => rw [mul_xtimes_one a hi, mul_xtimes_left, gf_one_mul]
  | xor b c hb hc => rw [gf_mul_xor, gf_xor_mul, hb, hc]

theorem gf_mul_assoc (a b c : Byte) : mul (mul a b) c = mul a (mul b c) := by
  induction c using byte_induction with
  | zero => simp
  | gen i hi => rw [mul_xtimes_one _ hi, mul_xtimes_one _ hi, gf_mul_comm a, gf_mul_comm a, mul_xtimes_left]
  | xor c d hc hd => rw [gf_mul_xor, gf_mul_xor, gf_mul_xor, hc, hd]

/-- Settles O15: each law is one of the lemmas above; the examples are evaluated. -/
theorem gfMultiplicationLaws : Obligations.GfMultiplicationLaws :=
  ⟨xtime_eq_ite, gf_mul_comm, gf_mul_assoc, gf_mul_xor, gf_mul_one, gf_mul_zero,
    fun a i hi => by rw [bit_eq_xtimes i hi, mul_xtimes_one a hi], by decide, by decide, by decide⟩

/-! ### The inverse is the 254th power (R144, log 21) -/

/-- The square in GF(2^8). -/
def gfSquare (a : Byte) : Byte := mul a a

/-- Squaring is additive: the two mixed products cancel. -/
theorem gfSquare_xor (a b : Byte) : gfSquare (a ^^^ b) = gfSquare a ^^^ gfSquare b := by
  calc gfSquare (a ^^^ b) = gfSquare a ^^^ (mul a b ^^^ mul a b) ^^^ gfSquare b := by
        simp only [gfSquare, gf_mul_xor, gf_xor_mul, gf_mul_comm b a]; ac_rfl
    _ = gfSquare a ^^^ gfSquare b := by simp

theorem gfSquare_mul (a b : Byte) : gfSquare (mul a b) = mul (gfSquare a) (gfSquare b) := by
  rw [gfSquare, gf_mul_assoc, gf_mul_comm b, gf_mul_assoc, ← gf_mul_assoc a a, gfSquare, gfSquare]

theorem gfSquare_iterate_xor (n : Nat) (a b : Byte) : gfSquare^[n] (a ^^^ b) = gfSquare^[n] a ^^^ gfSquare^[n] b := by
  induction n with
  | zero => rfl
  | succ n ih => simp only [Function.iterate_succ_apply', ih, gfSquare_xor]

/-- `a^256 = a`: both sides are additive. -/
theorem gfSquare_iterate_eight (a : Byte) : gfSquare^[8] a = a := by
  induction a using byte_induction with
  | zero => decide +kernel
  | gen i hi => revert i; decide +kernel
  | xor a b ha hb => rw [gfSquare_iterate_xor, ha, hb]

theorem mul_powOnes (n : Nat) (a : Byte) : mul (powOnes n a) a = gfSquare^[n] a := by
  induction n with
  | zero => exact gf_one_mul a
  | succ n ih =>
    rw [Function.iterate_succ_apply', ← ih, gfSquare_mul, gfSquare, gfSquare, ← gf_mul_assoc, powOnes]

theorem gf_mul_mul_inv (a : Byte) : mul a (mul a (inv a)) = a := by
  rw [← gf_mul_assoc, gf_mul_comm]
  calc mul (inv a) (gfSquare a) = gfSquare (mul (powOnes 7 a) a) := (gfSquare_mul _ _).symm
    _ = gfSquare^[8] a := by rw [mul_powOnes, ← Function.iterate_succ_apply' gfSquare]
    _ = a := gfSquare_iterate_eight a

/-! ### `SBOX` is the affine map of the inverse (R145) -/

/-- The inverse of the affine map of R145. -/
def affineInverse (b : Byte) : Byte := b.rotateLeft 1 ^^^ b.rotateLeft 3 ^^^ b.rotateLeft 6 ^^^ 0x05#8

theorem affine_affineInverse : ∀ b : Byte, affine (affineInverse b) = b := by decide +kernel

/-- The table yields an inverse of every nonzero byte. -/
theorem mul_affineInverse_sbox : ∀ a : Byte, a ≠ 0#8 → mul a (affineInverse (sbox a)) = 1#8 := by decide +kernel

theorem gf_mul_inv_of_mul_eq_one {a x : Byte} (h : mul a x = 1#8) : mul a (inv a) = 1#8 := by
  calc mul a (inv a) = mul x (mul a (mul a (inv a))) := by rw [← gf_mul_assoc x, gf_mul_comm x, h, gf_one_mul]
    _ = 1#8 := by rw [gf_mul_mul_inv, gf_mul_comm, h]

theorem gf_eq_inv_of_mul_eq_one {a x : Byte} (h : mul a x = 1#8) : x = inv a := by
  calc x = mul x (mul a (inv a)) := by rw [gf_mul_inv_of_mul_eq_one h, gf_mul_one]
    _ = inv a := by rw [← gf_mul_assoc, gf_mul_comm x, h, gf_one_mul]

theorem gf_inv_zero : inv 0#8 = 0#8 := by rw [inv, powOnes, gf_mul_zero, gf_mul_zero]

/-- Settles O16: the table gives every nonzero byte an inverse, and then the 254th power is the only one. -/
theorem gfInverseIsUnique : Obligations.GfInverseIsUnique :=
  ⟨gf_inv_zero, fun a ha => ⟨gf_mul_inv_of_mul_eq_one (mul_affineInverse_sbox a ha), fun _ => gf_eq_inv_of_mul_eq_one⟩⟩

/-- R145: the table's entry is the affine map of the inverse. -/
theorem sbox_eq_affine_inv (a : Byte) : sbox a = affine (inv a) := by
  by_cases ha : a = 0#8
  · rw [ha, gf_inv_zero]; decide
  · rw [← gf_eq_inv_of_mul_eq_one (mul_affineInverse_sbox a ha), affine_affineInverse]

theorem getLsbD_affine (b : Byte) : ∀ i < 8, (affine b).getLsbD i =
    (b.getLsbD i ^^ b.getLsbD ((i + 4) % 8) ^^ b.getLsbD ((i + 5) % 8) ^^ b.getLsbD ((i + 6) % 8) ^^
      b.getLsbD ((i + 7) % 8) ^^ (0x63#8).getLsbD i) := by
  intro i hi
  rw [affine]
  refine BitVec.getLsbD_ofBoolListLE.trans ?_
  simp [hi]

/-! ### `SBOX` is a permutation without a fixed point (R145, R146) -/

theorem sbox_ne_self : ∀ a : Byte, sbox a ≠ a := by decide +kernel

@[simp] theorem invSbox_sbox : ∀ a : Byte, invSbox (sbox a) = a := by decide +kernel

@[simp] theorem sbox_invSbox : ∀ a : Byte, sbox (invSbox a) = a :=
  Function.LeftInverse.rightInverse_of_card_le invSbox_sbox le_rfl

/-- Settles O17: the affine map bit by bit, and the two tables read at every byte. -/
theorem sboxIsAffineOfInverse : Obligations.SboxIsAffineOfInverse :=
  fun a => ⟨fun i hi => by rw [sbox_eq_affine_inv, getLsbD_affine _ i hi], sbox_ne_self a, invSbox_sbox a, sbox_invSbox a⟩

end Sys2Proof.Machine

/-! PROOFS. The AES-128 block functions: the key schedule by its recurrence (O18), each round transformation byte by byte
with its inverse (O19, O20), the ten rounds and that the two block functions undo each other (O22, O59). A column mix is
a circulant matrix over GF(2^8), so that the two mixes undo each other is one product of first rows. -/

namespace Sys2Proof.Machine

/-! ### The key schedule (R150) -/

/-- Expanding further leaves a word where it stands counted from the oldest, so `m` places further from the newest. -/
theorem getD_expandWords_add (key : Bytes 16) (n k m : Nat) :
    (expandWords key (n + m)).getD (k + m) (zeroBytes 4) = (expandWords key n).getD k (zeroBytes 4) := by
  induction m with
  | zero => rfl
  | succ m ih => exact ih

theorem keyWord_eq_getD_expandWords (key : Bytes 16) {i n k : Nat} (hn : n ≤ 40) (hi : i + k = n + 3) :
    keyWord key i = (expandWords key n).getD k (zeroBytes 4) := by
  rw [← getD_expandWords_add key n k (40 - n), keyWord]
  congr 2 <;> omega

/-- R150: the step of the key schedule. -/
theorem keyWord_add_four (key : Bytes 16) {n : Nat} (h : n + 4 < 44) :
    keyWord key (n + 4) = xorBytes (keyWord key n) (scheduleCore (n + 4) (keyWord key (n + 3))) := by
  rw [keyWord_eq_getD_expandWords key (i := n + 4) (n := n + 1) (k := 0) (by omega) (by omega),
    keyWord_eq_getD_expandWords key (i := n) (n := n) (k := 3) (by omega) (by omega),
    keyWord_eq_getD_expandWords key (i := n + 3) (n := n) (k := 0) (by omega) (by omega)]
  rfl

theorem keyWord_of_lt_four (key : Bytes 16) : ∀ i < 4,
    keyWord key i = toBytes 4 (slice key.toList (4 * i) (4 * i + 4)) := by
  intro i hi
  rw [keyWord_eq_getD_expandWords key (n := 0) (k := 3 - i) (by omega) (by omega)]
  interval_cases i <;> ext j hj : 1 <;> interval_cases j <;> simp [expandWords, toBytes, slice, byteAt]

theorem toList_keyExpand_get (key : Bytes 16) (r : Fin 11) : ((keyExpand key).get r).toList =
    (keyWord key (4 * r.val)).toList ++ (keyWord key (4 * r.val + 1)).toList ++
      (keyWord key (4 * r.val + 2)).toList ++ (keyWord key (4 * r.val + 3)).toList := by
  have hget : (keyExpand key).get r = _ := Vector.getElem_ofFn r.isLt
  rw [hget, toList_toBytes _ _ (by simp)]

theorem scheduleCore_of_mod_eq_zero {i : Nat} (h : i % 4 = 0) (t : Bytes 4) : scheduleCore i t =
    #v[sbox t[1] ^^^ xtimes (i / 4 - 1) 0x01#8, sbox t[2], sbox t[3], sbox t[0]] := by
  simp [scheduleCore, h, addRcon, subWord, rotWord, rcon]

theorem slice_append_slice (b : List Byte) {i j k : Nat} (hij : i ≤ j) (hjk : j ≤ k) :
    slice b i j ++ slice b j k = slice b i k := by
  obtain ⟨m, rfl⟩ := Nat.exists_eq_add_of_le hij
  obtain ⟨n, rfl⟩ := Nat.exists_eq_add_of_le hjk
  have hlen : i + m + n - i = m + n := by omega
  simp only [slice, hlen, Nat.add_sub_cancel_left, List.take_add, List.drop_drop]

theorem toList_keyWord_of_lt_four (key : Bytes 16) {i : Nat} (h : i < 4) :
    (keyWord key i).toList = slice key.toList (4 * i) (4 * i + 4) := by
  rw [keyWord_of_lt_four key i h, toList_toBytes]
  rw [length_slice _ _ _ (by rw [Vector.length_toList]; omega), Nat.add_sub_cancel_left]

theorem keyExpand_get_zero (key : Bytes 16) : (keyExpand key).get 0 = key := by
  apply Vector.toList_inj.1
  rw [toList_keyExpand_get]
  have hslice : slice key.toList 0 16 = key.toList := List.take_of_length_le (Nat.le_of_eq (Vector.length_toList))
  simpa [toList_keyWord_of_lt_four, slice_append_slice] using hslice

/-- Settles O18: the recurrence of `keyWord_add_four`, with and without the core of every fourth word. -/
theorem keyScheduleRecurrence : Obligations.KeyScheduleRecurrence := by
  intro key
  refine ⟨keyWord_of_lt_four key, fun i hfour hlt hmod => ?_, fun i hfour hlt hmod t ht => ?_,
    toList_keyExpand_get key, keyExpand_get_zero key⟩
  · obtain ⟨n, rfl⟩ := Nat.exists_eq_add_of_le' hfour
    rw [keyWord_add_four key hlt, scheduleCore, if_neg hmod]
    rfl
  · obtain ⟨n, rfl⟩ := Nat.exists_eq_add_of_le' hfour
    rw [keyWord_add_four key hlt, scheduleCore_of_mod_eq_zero hmod, ht]
    rfl

/-! ### Bytes of the round transformations (R152 to R154) -/

@[simp] theorem getElem_addRoundKey (s k : Bytes 16) (i : Nat) (h : i < 16) : (addRoundKey s k)[i] = s[i] ^^^ k[i] :=
  Vector.getElem_zipWith h

@[simp] theorem getElem_subBytes (s : Bytes 16) (i : Nat) (h : i < 16) : (subBytes s)[i] = sbox s[i] :=
  Vector.getElem_map _ h

@[simp] theorem getElem_invSubBytes (s : Bytes 16) (i : Nat) (h : i < 16) : (invSubBytes s)[i] = invSbox s[i] :=
  Vector.getElem_map _ h

@[simp] theorem getElem_shiftRows (s : Bytes 16) (i : Nat) (h : i < 16) :
    (shiftRows s)[i] = s[4 * ((i / 4 + i % 4) % 4) + i % 4] :=
  Vector.getElem_ofFn h

@[simp] theorem getElem_invShiftRows (s : Bytes 16) (i : Nat) (h : i < 16) :
    (invShiftRows s)[i] = s[4 * ((i / 4 + 4 - i % 4) % 4) + i % 4] :=
  Vector.getElem_ofFn h

@[simp] theorem addRoundKey_addRoundKey (s k : Bytes 16) : addRoundKey (addRoundKey s k) k = s := by
  ext i hi : 1
  simp

@[simp] theorem invSubBytes_subBytes (s : Bytes 16) : invSubBytes (subBytes s) = s := by
  ext i hi : 1
  simp

@[simp] theorem subBytes_invSubBytes (s : Bytes 16) : subBytes (invSubBytes s) = s := by
  ext i hi : 1
  simp

@[simp] theorem invShiftRows_shiftRows (s : Bytes 16) : invShiftRows (shiftRows s) = s := by
  ext i hi : 1
  rw [getElem_invShiftRows, getElem_shiftRows]
  congr 1
  omega

@[simp] theorem shiftRows_invShiftRows (s : Bytes 16) : shiftRows (invShiftRows s) = s := by
  ext i hi : 1
  rw [getElem_shiftRows, getElem_invShiftRows]
  congr 1
  omega

theorem getElem_shiftRows_row (s : Bytes 16) {r c : Nat} (hr : r < 4) (hc : c < 4) :
    (shiftRows s)[4 * c + r] = s[4 * ((c + r) % 4) + r] := by
  rw [getElem_shiftRows]
  congr 1
  omega

/-- Settles O19: the rotation to the right is read off the one to the left, on the state rotated right. -/
theorem shiftRowsRotatesRows : Obligations.ShiftRowsRotatesRows := by
  refine fun s => ⟨fun r c => getElem_shiftRows_row s r.isLt c.isLt, fun r c => ?_, invShiftRows_shiftRows s,
    shiftRows_invShiftRows s⟩
  have hrow := getElem_shiftRows_row (invShiftRows s) r.isLt c.isLt
  simp only [shiftRows_invShiftRows] at hrow
  exact hrow.symm

/-! ### Column mixes (R155, R156) -/

theorem getElem_column (s : Bytes 16) (c : Fin 4) {j : Nat} (h : j < 4) : (column s c)[j] = s[4 * c.val + j] := by
  interval_cases j <;> rfl

theorem column_onColumns (f : Bytes 4 → Bytes 4) (s : Bytes 16) (c : Fin 4) :
    column (onColumns f s) c = f (column s c) := by
  ext j hj : 1
  have hdiv : (4 * c.val + j) / 4 = c.val := by omega
  have hmod : (4 * c.val + j) % 4 = j := by omega
  simp [getElem_column, onColumns, hdiv, hmod]

theorem eq_of_columns {s t : Bytes 16} (h : ∀ c, column s c = column t c) : s = t := by
  ext i hi : 1
  have hget (u : Bytes 16) : (column u ⟨i / 4, by omega⟩)[i % 4] = u[i] := by simp [getElem_column, Nat.div_add_mod]
  rw [← hget s, h, hget]

theorem onColumns_leftInverse {f g : Bytes 4 → Bytes 4} (h : ∀ a, g (f a) = a) (s : Bytes 16) :
    onColumns g (onColumns f s) = s :=
  eq_of_columns fun c => by rw [column_onColumns, column_onColumns, h]

/-- The product of a column with the circulant matrix of first row `r`: the next row is the last, one place to the right. -/
def circulant (r a : Bytes 4) : Bytes 4 := #v[
  mul r[0] a[0] ^^^ mul r[1] a[1] ^^^ mul r[2] a[2] ^^^ mul r[3] a[3],
  mul r[3] a[0] ^^^ mul r[0] a[1] ^^^ mul r[1] a[2] ^^^ mul r[2] a[3],
  mul r[2] a[0] ^^^ mul r[3] a[1] ^^^ mul r[0] a[2] ^^^ mul r[1] a[3],
  mul r[1] a[0] ^^^ mul r[2] a[1] ^^^ mul r[3] a[2] ^^^ mul r[0] a[3]]

theorem mixColumn_eq_circulant (a : Bytes 4) : mixColumn a = circulant #v[2, 3, 1, 1] a := by
  simp [mixColumn, circulant]

theorem invMixColumn_eq_circulant (a : Bytes 4) : invMixColumn a = circulant #v[14, 11, 13, 9] a := rfl

/-- The product of two circulant matrices, by its first row. -/
def circulantProduct (r q : Bytes 4) : Bytes 4 := #v[
  mul r[0] q[0] ^^^ mul r[1] q[3] ^^^ mul r[2] q[2] ^^^ mul r[3] q[1],
  mul r[0] q[1] ^^^ mul r[1] q[0] ^^^ mul r[2] q[3] ^^^ mul r[3] q[2],
  mul r[0] q[2] ^^^ mul r[1] q[1] ^^^ mul r[2] q[0] ^^^ mul r[3] q[3],
  mul r[0] q[3] ^^^ mul r[1] q[2] ^^^ mul r[2] q[1] ^^^ mul r[3] q[0]]

/-- Each entry is, on both sides, the sum of the same sixteen products of three bytes. -/
theorem circulant_circulant (r q a : Bytes 4) : circulant r (circulant q a) = circulant (circulantProduct r q) a := by
  ext i hi : 1
  interval_cases i <;> simp [circulant, circulantProduct, gf_mul_xor, gf_xor_mul, gf_mul_assoc] <;> ac_rfl

theorem circulant_one (a : Bytes 4) : circulant #v[1, 0, 0, 0] a = a := by
  ext i hi : 1
  interval_cases i <;> simp [circulant]

theorem invMixColumn_mixColumn (a : Bytes 4) : invMixColumn (mixColumn a) = a := by
  have hprod : circulantProduct #v[14, 11, 13, 9] #v[2, 3, 1, 1] = #v[1, 0, 0, 0] := by decide +kernel
  rw [mixColumn_eq_circulant, invMixColumn_eq_circulant, circulant_circulant, hprod, circulant_one]

theorem mixColumn_invMixColumn (a : Bytes 4) : mixColumn (invMixColumn a) = a := by
  have hprod : circulantProduct #v[2, 3, 1, 1] #v[14, 11, 13, 9] = #v[1, 0, 0, 0] := by decide +kernel
  rw [mixColumn_eq_circulant, invMixColumn_eq_circulant, circulant_circulant, hprod, circulant_one]

@[simp] theorem invMixColumns_mixColumns (s : Bytes 16) : invMixColumns (mixColumns s) = s :=
  onColumns_leftInverse invMixColumn_mixColumn s

@[simp] theorem mixColumns_invMixColumns (s : Bytes 16) : mixColumns (invMixColumns s) = s :=
  onColumns_leftInverse mixColumn_invMixColumn s

/-- Settles O20: the byte and column equations with the inverses above; a column of a mix is the mix of that column. -/
theorem roundTransformsAreInverses : Obligations.RoundTransformsAreInverses := by
  intro s k
  refine ⟨fun i => getElem_addRoundKey s k i i.isLt,
    fun i => ⟨getElem_subBytes s i i.isLt, getElem_invSubBytes s i i.isLt⟩,
    fun c a₀ a₁ a₂ a₃ hcol => ⟨?_, ?_⟩,
    addRoundKey_addRoundKey s k, invSubBytes_subBytes s, subBytes_invSubBytes s, invMixColumns_mixColumns s,
    mixColumns_invMixColumns s⟩
  · rw [mixColumns, column_onColumns, hcol]; rfl
  · rw [invMixColumns, column_onColumns, hcol]; rfl

/-! ### The block functions undo each other (R162) -/

/-- Steps that undo each other through `p`, taken in reverse order, undo a run. -/
theorem foldl_reverse_undo {α β : Type} {f g : α → β → α} {p : α → α} (h : ∀ s r, g (p (f s r)) r = p s)
    (l : List β) (s : α) : l.reverse.foldl g (p (l.foldl f s)) = p s := by
  induction l generalizing s with
  | nil => rfl
  | cons r l ih => simp only [List.reverse_cons, List.foldl_append, List.foldl_cons, List.foldl_nil, ih, h]

theorem decRound_encRound (rk : Vector (Bytes 16) 11) (s : Bytes 16) (r : Fin 11) :
    decRound rk (shiftRows (subBytes (encRound rk s r))) r = shiftRows (subBytes s) := by
  simp [decRound, encRound]

theorem encRound_decRound (rk : Vector (Bytes 16) 11) (s : Bytes 16) (r : Fin 11) :
    encRound rk (invSubBytes (invShiftRows (decRound rk s r))) r = invSubBytes (invShiftRows s) := by
  simp [decRound, encRound]

theorem aesDecBlock_aesEncBlock (rk : Vector (Bytes 16) 11) (b : Bytes 16) :
    aesDecBlock rk (aesEncBlock rk b) = b := by
  have hrounds := foldl_reverse_undo (p := fun s => shiftRows (subBytes s)) (decRound_encRound rk) middleRounds
    (addRoundKey b (rk.get 0))
  simp [aesDecBlock, aesEncBlock, hrounds]

theorem aesEncBlock_aesDecBlock (rk : Vector (Bytes 16) 11) (b : Bytes 16) :
    aesEncBlock rk (aesDecBlock rk b) = b := by
  have hrounds := foldl_reverse_undo (p := fun s => invSubBytes (invShiftRows s)) (encRound_decRound rk)
    middleRounds.reverse (addRoundKey b (rk.get 10))
  rw [List.reverse_reverse] at hrounds
  simp [aesDecBlock, aesEncBlock, hrounds, -List.foldl_reverse]

/-- Settles O22, which holds under any round keys. -/
theorem aesBlockFunctionsAreInverses : Obligations.AesBlockFunctionsAreInverses :=
  fun k b => ⟨aesDecBlock_aesEncBlock (keyExpand k) b, aesEncBlock_aesDecBlock (keyExpand k) b⟩

/-! ### The rounds one by one (R160, R161) -/

/-- The state after the first `n` rounds of a list. -/
def afterRounds (round : Bytes 16 → Fin 11 → Bytes 16) (l : List (Fin 11)) (s : Bytes 16) (n : Nat) : Bytes 16 :=
  (l.take n).foldl round s

theorem afterRounds_succ (round : Bytes 16 → Fin 11 → Bytes 16) (l : List (Fin 11)) (s : Bytes 16) {n : Nat}
    (h : n < l.length) : afterRounds round l s (n + 1) = round (afterRounds round l s n) l[n] := by
  rw [afterRounds, ← List.take_concat_get' l n h, List.foldl_append]
  rfl

theorem getElem_middleRounds : ∀ r (h : r < 9), middleRounds[r] = ⟨r + 1, by omega⟩ := by decide

theorem getElem_reverse_middleRounds : ∀ r (h : r < 9), middleRounds.reverse[r] = ⟨9 - r, by omega⟩ := by decide

/-- Settles O59: the states are the runs of the first rounds of each list. -/
theorem blockFunctionsRunTenRounds : Obligations.BlockFunctionsRunTenRounds := by
  intro rk b
  refine ⟨afterRounds (encRound rk) middleRounds (addRoundKey b (rk.get 0)),
    afterRounds (decRound rk) middleRounds.reverse (addRoundKey b (rk.get 10)), rfl, fun r h => ?_, rfl, rfl,
    fun r h => ?_, rfl⟩
  · rw [afterRounds_succ _ _ _ h, getElem_middleRounds r h, encRound]
  · rw [afterRounds_succ _ _ _ h, getElem_reverse_middleRounds r h, decRound]

/-- Settles O21, by running the cipher and its inverse on the two examples. -/
theorem aesPublishedVectors : Obligations.AesPublishedVectors := ⟨by decide +kernel, by decide +kernel⟩

end Sys2Proof.Machine

/-! PROOFS. Cipher block chaining (O23 to O28). A sequence of whole blocks and the list of its blocks determine each other,
and both directions of CBC act on that list, so each law is an induction over blocks. -/

namespace Sys2Proof.Machine

/-! ### A byte sequence as the list of its blocks (R56, R181) -/

/-- The blocks of a sequence, as both loops of R181 take them; bytes past the last whole block are in none. -/
def wholeBlocks (b : List Byte) : List (Bytes 16) := blocksOf (b.length / blkLen) b

@[simp] theorem length_wholeBlocks (b : List Byte) : (wholeBlocks b).length = b.length / blkLen := length_blocksOf _ _

theorem joinBlocks_cons (x : Bytes 16) (xs : List (Bytes 16)) : joinBlocks (x :: xs) = x.toList ++ joinBlocks xs := rfl

/-- A conversion to `n` bytes reads no further than them. -/
theorem toBytes_take (n : Nat) (b : List Byte) : toBytes n (b.take n) = toBytes n b := by
  ext i hi : 1
  simp [toBytes, byteAt]

theorem toBytes_toList_append {n : Nat} (x : Bytes n) (b : List Byte) : toBytes n (x.toList ++ b) = x := by
  rw [← toBytes_take, List.take_left' Vector.length_toList, toBytes_toList]

theorem blockAt_eq_toBytes_drop (b : List Byte) (j : Nat) : blockAt b j = toBytes 16 (b.drop (16 * j)) := by
  rw [blockAt, slice, Nat.add_sub_cancel_left, toBytes_take]

theorem blocksOf_joinBlocks (bs : List (Bytes 16)) : blocksOf bs.length (joinBlocks bs) = bs := by
  induction bs with
  | nil => rfl
  | cons x xs ih =>
    have hrest : (joinBlocks (x :: xs)).drop blkLen = joinBlocks xs := List.drop_left' Vector.length_toList
    rw [List.length_cons, blocksOf, hrest, ih, joinBlocks_cons, toBytes_toList_append]

@[simp] theorem wholeBlocks_joinBlocks (bs : List (Bytes 16)) : wholeBlocks (joinBlocks bs) = bs := by
  rw [wholeBlocks, length_joinBlocks, blkLen, Nat.mul_div_cancel_left _ (by decide), blocksOf_joinBlocks]

theorem joinBlocks_blocksOf : ∀ (m : Nat) (b : List Byte), b.length = 16 * m → joinBlocks (blocksOf m b) = b
  | 0, _, h => (List.eq_nil_of_length_eq_zero h).symm
  | m + 1, b, h => by
    have hfirst : (toBytes 16 b).toList = b.take 16 := by
      rw [← toBytes_take, toList_toBytes 16 _ (by simp; omega)]
    have hrest : joinBlocks (blocksOf m (b.drop 16)) = b.drop 16 :=
      joinBlocks_blocksOf m _ (by rw [List.length_drop]; omega)
    rw [blocksOf, blkLen, joinBlocks_cons, hfirst, hrest, List.take_append_drop]

theorem joinBlocks_wholeBlocks {b : List Byte} (h : Aligned b) : joinBlocks (wholeBlocks b) = b :=
  joinBlocks_blocksOf _ b (Nat.mul_div_cancel' (Nat.dvd_of_mod_eq_zero h)).symm

theorem getElem_blocksOf {m : Nat} : ∀ (b : List Byte) (j : Nat) (h : j < (blocksOf m b).length),
    (blocksOf m b)[j] = blockAt b j := by
  induction m with
  | zero => intro b j h; cases h
  | succ m ih =>
    intro b j h
    cases j with
    | zero => exact (blockAt_eq_toBytes_drop b 0).symm
    | succ j =>
      calc (blocksOf (m + 1) b)[j + 1]
        _ = blockAt (b.drop 16) j := ih (b.drop 16) j (Nat.lt_of_succ_lt_succ h)
        _ = blockAt b (j + 1) := by
          rw [blockAt_eq_toBytes_drop, blockAt_eq_toBytes_drop, List.drop_drop, Nat.mul_succ, Nat.add_comm]

theorem getElem_wholeBlocks {b : List Byte} {j : Nat} (h : j < (wholeBlocks b).length) :
    (wholeBlocks b)[j] = blockAt b j := getElem_blocksOf b j h

/-- The chaining value before block `j`: `V`, then the blocks themselves (R181). -/
theorem getElem_cons_wholeBlocks (v : Bytes 16) {b : List Byte} {j : Nat} (h : j < (v :: wholeBlocks b).length) :
    (v :: wholeBlocks b)[j] = if j = 0 then v else blockAt b (j - 1) := by
  simp [List.getElem_cons, getElem_wholeBlocks]

theorem joinBlocks_take : ∀ (bs : List (Bytes 16)) (j : Nat), joinBlocks (bs.take j) = (joinBlocks bs).take (16 * j)
  | _, 0 => by simp [joinBlocks]
  | [], j + 1 => by simp [joinBlocks]
  | x :: xs, j + 1 => by
    have hsplit : 16 * (j + 1) = x.toList.length + 16 * j := by rw [Vector.length_toList]; omega
    rw [List.take_succ_cons, joinBlocks_cons, joinBlocks_cons, joinBlocks_take xs j, hsplit, List.take_length_add_append]

theorem wholeBlocks_take {b : List Byte} (h : Aligned b) (j : Nat) :
    wholeBlocks (b.take (16 * j)) = (wholeBlocks b).take j :=
  calc wholeBlocks (b.take (16 * j))
    _ = wholeBlocks ((joinBlocks (wholeBlocks b)).take (16 * j)) := by rw [joinBlocks_wholeBlocks h]
    _ = (wholeBlocks b).take j := by rw [← joinBlocks_take, wholeBlocks_joinBlocks]

/-! ### The two loops (R181) -/

theorem xorBytes_xorBytes (a b : Bytes 16) : xorBytes (xorBytes a b) b = a := addRoundKey_addRoundKey a b

section
variable (rk : Vector (Bytes 16) 11)

theorem getElem_cbcEncBlocks : ∀ (ps : List (Bytes 16)) (ch : Bytes 16) (j : Nat) (h : j < ps.length),
    (cbcEncBlocks rk ch ps)[j]'(by simpa using h) = aesEncBlock rk
      (xorBytes ps[j] ((ch :: cbcEncBlocks rk ch ps)[j]'(by simp; omega)))
  | _ :: _, _, 0, _ => rfl
  | p :: ps, ch, j + 1, h =>
    getElem_cbcEncBlocks ps (aesEncBlock rk (xorBytes p ch)) j (Nat.lt_of_succ_lt_succ h)

theorem getElem_cbcDecBlocks : ∀ (cs : List (Bytes 16)) (ch : Bytes 16) (j : Nat) (h : j < cs.length),
    (cbcDecBlocks rk ch cs)[j]'(by simpa using h) =
      xorBytes (aesDecBlock rk cs[j]) ((ch :: cs)[j]'(by simp; omega))
  | _ :: _, _, 0, _ => rfl
  | c :: cs, _, j + 1, h => getElem_cbcDecBlocks cs c j (Nat.lt_of_succ_lt_succ h)

theorem cbcDecBlocks_cbcEncBlocks (ps : List (Bytes 16)) :
    ∀ ch, cbcDecBlocks rk ch (cbcEncBlocks rk ch ps) = ps := by
  induction ps with
  | nil => intro ch; rfl
  | cons p ps ih =>
    intro ch
    rw [cbcEncBlocks, cbcDecBlocks, ih, aesDecBlock_aesEncBlock, xorBytes_xorBytes]

theorem cbcEncBlocks_cbcDecBlocks (cs : List (Bytes 16)) :
    ∀ ch, cbcEncBlocks rk ch (cbcDecBlocks rk ch cs) = cs := by
  induction cs with
  | nil => intro ch; rfl
  | cons c cs ih =>
    intro ch
    rw [cbcDecBlocks, cbcEncBlocks, xorBytes_xorBytes, aesEncBlock_aesDecBlock, ih]

/-- A ciphertext block depends on no later plaintext block. -/
theorem cbcEncBlocks_take : ∀ (ps : List (Bytes 16)) (ch : Bytes 16) (j : Nat),
    cbcEncBlocks rk ch (ps.take j) = (cbcEncBlocks rk ch ps).take j
  | _, _, 0 => rfl
  | [], _, _ + 1 => rfl
  | p :: ps, ch, j + 1 => congrArg (_ :: ·) (cbcEncBlocks_take ps (aesEncBlock rk (xorBytes p ch)) j)

end

/-! ### CBC on byte sequences (R181 to R183) -/

section
variable (k v : Bytes 16)

theorem wholeBlocks_cbcEnc (p : List Byte) :
    wholeBlocks (cbcEnc k v p) = cbcEncBlocks (keyExpand k) v (wholeBlocks p) := wholeBlocks_joinBlocks _

theorem wholeBlocks_cbcDec (c : List Byte) :
    wholeBlocks (cbcDec k v c) = cbcDecBlocks (keyExpand k) v (wholeBlocks c) := wholeBlocks_joinBlocks _

theorem blockAt_cbcEnc (p : List Byte) {j : Nat} (h : j < p.length / 16) :
    blockAt (cbcEnc k v p) j = aesEncBlock (keyExpand k)
      (xorBytes (blockAt p j) (if j = 0 then v else blockAt (cbcEnc k v p) (j - 1))) := by
  have hloop := getElem_cbcEncBlocks (keyExpand k) (wholeBlocks p) v j (by simpa [blkLen] using h)
  simpa only [← wholeBlocks_cbcEnc, getElem_wholeBlocks, getElem_cons_wholeBlocks] using hloop

theorem blockAt_cbcDec (c : List Byte) {j : Nat} (h : j < c.length / 16) :
    blockAt (cbcDec k v c) j = xorBytes (aesDecBlock (keyExpand k) (blockAt c j))
      (if j = 0 then v else blockAt c (j - 1)) := by
  have hloop := getElem_cbcDecBlocks (keyExpand k) (wholeBlocks c) v j (by simpa [blkLen] using h)
  simpa only [← wholeBlocks_cbcDec, getElem_wholeBlocks, getElem_cons_wholeBlocks] using hloop

theorem cbcDec_cbcEnc {p : List Byte} (h : Aligned p) : cbcDec k v (cbcEnc k v p) = p :=
  calc cbcDec k v (cbcEnc k v p)
    _ = joinBlocks (cbcDecBlocks (keyExpand k) v (wholeBlocks (cbcEnc k v p))) := rfl
    _ = p := by rw [wholeBlocks_cbcEnc, cbcDecBlocks_cbcEncBlocks, joinBlocks_wholeBlocks h]

theorem cbcEnc_cbcDec {c : List Byte} (h : Aligned c) : cbcEnc k v (cbcDec k v c) = c :=
  calc cbcEnc k v (cbcDec k v c)
    _ = joinBlocks (cbcEncBlocks (keyExpand k) v (wholeBlocks (cbcDec k v c))) := rfl
    _ = c := by rw [wholeBlocks_cbcDec, cbcEncBlocks_cbcDecBlocks, joinBlocks_wholeBlocks h]

theorem cbcEnc_take {p : List Byte} (h : Aligned p) (j : Nat) :
    cbcEnc k v (p.take (16 * j)) = (cbcEnc k v p).take (16 * j) :=
  calc cbcEnc k v (p.take (16 * j))
    _ = joinBlocks (cbcEncBlocks (keyExpand k) v (wholeBlocks (p.take (16 * j)))) := rfl
    _ = (joinBlocks (cbcEncBlocks (keyExpand k) v (wholeBlocks p))).take (16 * j) := by
      rw [wholeBlocks_take h, cbcEncBlocks_take, joinBlocks_take]

end

/-- Settles O23: block `j` of each loop, with the chaining value read off the list of blocks with `V` before it. -/
theorem cbcBlockEquations : Obligations.CbcBlockEquations := fun k v b h =>
  ⟨length_cbcEnc k v b h, length_cbcDec k v b h, fun _ hj => ⟨blockAt_cbcEnc k v b hj, blockAt_cbcDec k v b hj⟩⟩

/-- Settles O24, by induction on the blocks with the chaining value left general. -/
theorem cbcRoundTrip : Obligations.CbcRoundTrip := fun k v _ h => ⟨cbcDec_cbcEnc k v h, cbcEnc_cbcDec k v h⟩

/-- Settles O25: the first `j` ciphertext blocks are the ciphertext of the first `j` plaintext blocks. -/
theorem cbcCiphertextPrefix : Obligations.CbcCiphertextPrefix := by
  intro k v p q j hp hq _ _ hpq
  rw [← cbcEnc_take k v hp, ← cbcEnc_take k v hq, hpq]

/-- Settles O26: a plaintext block depends on its own ciphertext block and the one before it. -/
theorem cbcErrorPropagation : Obligations.CbcErrorPropagation := by
  intro k v c d j _ hlen hsame m hm hj hj'
  have hchain : (if m = 0 then v else blockAt c (m - 1)) = if m = 0 then v else blockAt d (m - 1) := by
    split
    · rfl
    · exact hsame (m - 1) (by omega) (by omega)
  rw [blockAt_cbcDec k v c hm, blockAt_cbcDec k v d (hlen ▸ hm), hsame m hm hj, hchain]

/-! ### CBCENC and CBCDEC (R184, R187) -/

theorem exec_cbcenc_of_aligned {s : State} (h : Aligned s.input) :
    exec .cbcenc s = .next (finishOb s (cbcEnc s.key s.iv s.input) { res := .ok }) :=
  congrArg _ (if_neg (not_not.mpr h))

theorem exec_cbcdec_of_aligned {s : State} (h : Aligned s.input) :
    exec .cbcdec s = .next (finishOb s (cbcDec s.key s.iv s.input) { res := .ok }) :=
  congrArg _ (if_neg (not_not.mpr h))

/-- Settles O27: the two branches of the length check. -/
theorem cipherOperationsTransformIb : Obligations.CipherOperationsTransformIb := fun _ =>
  ⟨fun h => ⟨exec_cbcenc_of_aligned h, length_cbcEnc _ _ _ h, exec_cbcdec_of_aligned h, length_cbcDec _ _ _ h⟩,
   fun h => ⟨congrArg _ (if_pos h), congrArg _ (if_pos h)⟩⟩

/-- The host moves `OB` to `IB` (R30). -/
theorem input_of_ob_moved (s : State) (b : List Byte) (r : Result) :
    State.input { finishOb s b r with ib := (finishOb s b r).ob } = b := bytes_ofBytes b

/-- Settles O28: CBCENC keeps `KEY` and `IV`, and its output is of whole blocks, so CBCDEC goes through and undoes it. -/
theorem cbcencThenCbcdecRestoresTheInput : Obligations.CbcencThenCbcdecRestoresTheInput := by
  intro s h
  have hinput := input_of_ob_moved s (cbcEnc s.key s.iv s.input) { res := .ok }
  refine ⟨_, _, exec_cbcenc_of_aligned h, exec_cbcdec_of_aligned ?_, ?_⟩
  · rw [hinput, Aligned, length_cbcEnc _ _ _ h, h]
  · rw [State.output, finishOb_ob, bytes_ofBytes, hinput]
    exact cbcDec_cbcEnc s.key s.iv h

end Sys2Proof.Machine

/-! PROOFS. The framer and the parser (O29 to O31, O33, O34, O37 to O40, O46, O47). FRAME writes the command header field by
field and the fields lie apart, so each byte of a packet is read off the list of fields; PARSE is its checks in order, then
one of three arms. -/

namespace Sys2Proof.Machine

/-! ### Byte fields written one after the other (R13) -/

theorem byteAt_putByte_congr {b b' : List Byte} {a : Nat} (hlen : b.length = b'.length) (h : byteAt b a = byteAt b' a)
    (o : Nat) (v : Byte) : byteAt (putByte b o v) a = byteAt (putByte b' o v) a := by
  by_cases ha : a = o
  · subst ha
    simp [byteAt, putByte, List.getElem?_set, hlen]
  · rw [byteAt_putByte_ne _ _ _ _ ha, byteAt_putByte_ne _ _ _ _ ha, h]

theorem byteAt_putBytes_congr {a : Nat} : ∀ (vs : List Byte) {b b' : List Byte}, b.length = b'.length →
    byteAt b a = byteAt b' a → ∀ o, byteAt (putBytes b o vs) a = byteAt (putBytes b' o vs) a
  | [], _, _, _, h, _ => h
  | v :: vs, _, _, hlen, h, o =>
    byteAt_putBytes_congr vs (by simpa using hlen) (byteAt_putByte_congr hlen h o v) (o + 1)

/-- `b` with fields, each an offset and its bytes, written into it in the order of the list. -/
def writeFields (b : List Byte) (fs : List (Nat × List Byte)) : List Byte :=
  fs.foldl (fun b f => putBytes b f.1 f.2) b

/-- The byte range of a field. -/
def fieldRange (f : Nat × List Byte) : Nat × Nat := (f.1, f.2.length)

theorem byteAt_writeFields_outside {a : Nat} : ∀ (fs : List (Nat × List Byte)) (b : List Byte),
    (∀ f ∈ fs, ¬ InRange a f.1 f.2.length) → byteAt (writeFields b fs) a = byteAt b a
  | [], _, _ => rfl
  | f :: fs, b, h =>
    (byteAt_writeFields_outside fs (putBytes b f.1 f.2) fun g hg => h g (.tail _ hg)).trans
      (byteAt_putBytes_outside f.2 b f.1 a (h f (.head _)))

/-- A field is not touched by the writes after it. -/
theorem byteAt_writeFields_inside {f : Nat × List Byte} {i : Nat} (hi : i < f.2.length) :
    ∀ (fs : List (Nat × List Byte)) (b : List Byte), (fs.map fieldRange).Pairwise Disjoint2 →
    (∀ r ∈ fs.map fieldRange, r.1 + r.2 ≤ b.length) → f ∈ fs →
    byteAt (writeFields b fs) (f.1 + i) = byteAt f.2 i
  | g :: fs, b, hapart, hbound, hf => by
    rw [List.map_cons, List.pairwise_cons] at hapart
    rw [List.map_cons, List.forall_mem_cons] at hbound
    obtain ⟨hfirst, hapart⟩ := hapart
    obtain ⟨hg, hbound⟩ := hbound
    rcases List.mem_cons.mp hf with rfl | hf
    · refine (byteAt_writeFields_outside fs _ fun g hg => ?_).trans (byteAt_putBytes_inside f.2 b f.1 i hg hi)
      have hd := hfirst _ (List.mem_map_of_mem hg)
      simp only [fieldRange, Disjoint2] at hd
      simp only [InRange]
      omega
    · exact byteAt_writeFields_inside hi fs _ hapart (by simpa using hbound) hf

theorem byteAt_writeFields_congr {a : Nat} : ∀ (fs : List (Nat × List Byte)) {b b' : List Byte},
    b.length = b'.length → byteAt b a = byteAt b' a →
    byteAt (writeFields b fs) a = byteAt (writeFields b' fs) a
  | [], _, _, _, h => h
  | f :: fs, _, _, hlen, h =>
    byteAt_writeFields_congr fs (by simpa using hlen) (byteAt_putBytes_congr f.2 hlen h f.1)

/-- The two bytes that `put16le` stores (R14). -/
def halfBytes (v : Half) : List Byte := [v.setWidth 8, (v >>> 8).setWidth 8]

theorem le16_of_halfBytes {b : List Byte} {o : Nat} {v : Half}
    (h : ∀ i < 2, byteAt b (o + i) = byteAt (halfBytes v) i) : le16 b o = v := by
  rw [le16, ← Nat.add_zero o, h 0 (by decide), Nat.add_zero, h 1 (by decide)]
  exact half_of_bytes v

/-! ### The command header (R60, R211) -/

/-- The five fields that FRAME writes before the whole-packet checksum. -/
def headerFields (c : Cfg) (cmd : Byte) (seq : Half) (ident : Bytes 6) (sid : Bytes 4) (payload : List Byte) :
    List (Nat × List Byte) :=
  [(c.offCmd, [cmd]), (c.offSeq, halfBytes seq), (c.offIdent, ident.toList.reverse), (c.offSid, sid.toList),
   (c.offPaycs, halfBytes (csum payload))]

section
variable (c : Cfg) (cmd : Byte) (seq : Half) (ident : Bytes 6) (sid : Bytes 4) (payload : List Byte)

theorem frameHeader_eq_writeFields : frameHeader c cmd seq ident sid payload =
    writeFields c.hdrTemplate.toList (headerFields c cmd seq ident sid payload) := rfl

theorem cmdFields_eq_cons : c.cmdFields =
    (c.offPktcs, 2) :: (headerFields c cmd seq ident sid payload).map fieldRange := by
  simp [Cfg.cmdFields, headerFields, fieldRange, halfBytes]

variable {c}

theorem byteAt_frameHeader_field (hw : c.WellFormed) {f : Nat × List Byte}
    (hf : f ∈ headerFields c cmd seq ident sid payload) {i : Nat} (hi : i < f.2.length) :
    byteAt (frameHeader c cmd seq ident sid payload) (f.1 + i) = byteAt f.2 i := by
  obtain ⟨hbound, hapart, _⟩ := hw
  rw [cmdFields_eq_cons c cmd seq ident sid payload] at hbound hapart
  exact byteAt_writeFields_inside hi _ _ hapart.tail
    (fun r hr => (hbound r (.tail _ hr)).trans_eq Vector.length_toList.symm) hf

theorem byteAt_frameHeader_template {a : Nat} (ha : ¬ InField c a) :
    byteAt (frameHeader c cmd seq ident sid payload) a = byteAt c.hdrTemplate.toList a := by
  refine byteAt_writeFields_outside (headerFields c cmd seq ident sid payload) _ fun f hf hin =>
    ha ⟨fieldRange f, ?_, hin⟩
  rw [cmdFields_eq_cons c cmd seq ident sid payload]
  exact .tail _ (List.mem_map_of_mem hf)

/-- The counter is stored at `OFF_SEQ` only. -/
theorem byteAt_frameHeader_seq_congr (seq' : Half) {a : Nat} (ha : ¬ InRange a c.offSeq 2) :
    byteAt (frameHeader c cmd seq ident sid payload) a = byteAt (frameHeader c cmd seq' ident sid payload) a :=
  byteAt_writeFields_congr
    [(c.offIdent, ident.toList.reverse), (c.offSid, sid.toList), (c.offPaycs, halfBytes (csum payload))] (by simp)
    ((byteAt_put16le_outside _ _ _ seq ha).trans (byteAt_put16le_outside _ _ _ seq' ha).symm)

end

/-! ### The command packet (R60, R211, R213) -/

/-- The fields of the header of the packet that FRAME builds in state `s`. -/
def State.packetFields (s : State) : List (Nat × List Byte) :=
  headerFields s.cfg s.ports.cmd (s.seq + 1) s.ident s.sid s.input

theorem byteAt_packetOf_header (s : State) {a : Nat} (ha : a < 56) (hcs : ¬ InRange a s.cfg.offPktcs 2) :
    byteAt (packetOf s) a = byteAt (frameHeader s.cfg s.ports.cmd (s.seq + 1) s.ident s.sid s.input) a := by
  rw [packetOf, framePacket, sealChecksum, byteAt_put16le_outside _ _ _ _ hcs,
    byteAt_append_left (by rwa [length_frameHeader])]

theorem byteAt_packetOf_field {s : State} (hw : s.cfg.WellFormed) {f : Nat × List Byte} (hf : f ∈ s.packetFields)
    {i : Nat} (hi : i < f.2.length) : byteAt (packetOf s) (f.1 + i) = byteAt f.2 i := by
  have hmem : fieldRange f ∈ s.packetFields.map fieldRange := List.mem_map_of_mem hf
  have hfields : s.cfg.cmdFields = (s.cfg.offPktcs, 2) :: s.packetFields.map fieldRange := cmdFields_eq_cons ..
  obtain ⟨hbound, hapart, _⟩ := id hw
  rw [hfields] at hbound hapart
  have hlt : f.1 + f.2.length ≤ 56 := hbound _ (.tail _ hmem)
  have hcs : Disjoint2 (s.cfg.offPktcs, 2) (f.1, f.2.length) := (List.pairwise_cons.mp hapart).1 _ hmem
  rw [byteAt_packetOf_header s (by omega) (by simp only [InRange]; omega), byteAt_frameHeader_field _ _ _ _ _ hw hf hi]

theorem byteAt_packetOf_template (s : State) {a : Nat} (ha : a < 56) (hno : ¬ InField s.cfg a) :
    byteAt (packetOf s) a = byteAt s.cfg.hdrTemplate.toList a := by
  have hcs : ¬ InRange a s.cfg.offPktcs 2 := fun hin => hno ⟨(s.cfg.offPktcs, 2), .head _, hin⟩
  rw [byteAt_packetOf_header s ha hcs, byteAt_frameHeader_template _ _ _ _ _ hno]

theorem byteAt_packetOf_cmd {s : State} (hw : s.cfg.WellFormed) : byteAt (packetOf s) s.cfg.offCmd = s.ports.cmd :=
  byteAt_packetOf_field hw (f := (s.cfg.offCmd, [s.ports.cmd])) (by simp [State.packetFields, headerFields])
    (i := 0) Nat.one_pos

theorem le16_packetOf_seq {s : State} (hw : s.cfg.WellFormed) : le16 (packetOf s) s.cfg.offSeq = s.seq + 1 :=
  le16_of_halfBytes fun _ hi => byteAt_packetOf_field hw (f := (s.cfg.offSeq, halfBytes (s.seq + 1)))
    (by simp [State.packetFields, headerFields]) hi

theorem le16_packetOf_paycs {s : State} (hw : s.cfg.WellFormed) :
    le16 (packetOf s) s.cfg.offPaycs = csum s.input :=
  le16_of_halfBytes fun _ hi => byteAt_packetOf_field hw (f := (s.cfg.offPaycs, halfBytes (csum s.input)))
    (by simp [State.packetFields, headerFields]) hi

/-- R92: the identity goes out in reversed byte order. -/
theorem byteAt_packetOf_ident {s : State} (hw : s.cfg.WellFormed) {i : Nat} (hi : i < 6) :
    byteAt (packetOf s) (s.cfg.offIdent + i) = byteAt s.ident.toList (5 - i) := by
  have hrev : byteAt s.ident.toList.reverse i = byteAt s.ident.toList (5 - i) := by
    rw [byteAt_eq_getElem _ _ (by simpa using hi), byteAt_eq_getElem _ _ (by simp; omega), List.getElem_reverse]
    simp
  rw [← hrev]
  exact byteAt_packetOf_field hw (f := (s.cfg.offIdent, s.ident.toList.reverse))
    (by simp [State.packetFields, headerFields]) (by simpa using hi)

/-- R95: the whole-packet checksum is that of the packet with the field zeroed. -/
theorem le16_packetOf_pktcs {s : State} (hw : s.cfg.WellFormed) :
    le16 (packetOf s) s.cfg.offPktcs = csum (zero16 (packetOf s) s.cfg.offPktcs) := by
  obtain ⟨_, hpktcs, _⟩ := sid_field_apart hw
  rw [packetOf, framePacket, sealChecksum, le16_put16le _ _ _ (by simp; omega), zero16_put16le, csumZeroed]

theorem isCommandPacket_packetOf {s : State} (hw : s.cfg.WellFormed) (ha : Aligned s.input) :
    IsCommandPacket s.cfg s.ports.cmd (s.seq + 1) s.ident s.sid s.key s.iv s.input (packetOf s) where
  length := length_packetOf s ha
  command := byteAt_packetOf_cmd hw
  sequence := le16_packetOf_seq hw
  identity _ hi := byteAt_packetOf_ident hw hi
  session _ hi := byteAt_packetOf_sid hw hi
  payloadChecksum := le16_packetOf_paycs hw
  packetChecksum := le16_packetOf_pktcs hw
  template _ := byteAt_packetOf_template s
  cipher := drop_packetOf hw

theorem byteAt_append_congr {h h' : List Byte} (hlen : h.length = h'.length) (ct : List Byte) {a : Nat}
    (ha : byteAt h a = byteAt h' a) : byteAt (h ++ ct) a = byteAt (h' ++ ct) a := by
  by_cases hin : a < h.length
  · rw [byteAt_append_left hin, byteAt_append_left (hlen ▸ hin), ha]
  · rw [byteAt, byteAt, List.getD_append_right _ _ _ _ (by omega), List.getD_append_right _ _ _ _ (by omega), hlen]

/-- R213 (e): two packets that differ in the counter alone. -/
theorem byteAt_framePacket_seq_congr (c : Cfg) (cmd : Byte) (seq seq' : Half) (ident : Bytes 6) (sid : Bytes 4)
    (key iv : Bytes 16) (payload : List Byte) {a : Nat} (hseq : ¬ InRange a c.offSeq 2)
    (hcs : ¬ InRange a c.offPktcs 2) :
    byteAt (framePacket c cmd seq ident sid key iv payload) a =
      byteAt (framePacket c cmd seq' ident sid key iv payload) a := by
  rw [framePacket, framePacket, sealChecksum, sealChecksum, byteAt_put16le_outside _ _ _ _ hcs,
    byteAt_put16le_outside _ _ _ _ hcs]
  exact byteAt_append_congr (by simp) _ (byteAt_frameHeader_seq_congr _ _ _ _ _ _ hseq)

/-! ### OPEN and FRAME (R204, R210 to R213) -/

/-- Settles O29: the two branches of OPEN. -/
theorem openLoadsTheSession : Obligations.OpenLoadsTheSession := by
  intro s
  rcases openSession_cases s with ⟨hopen, e⟩ | ⟨hopen, e⟩
  · exact ⟨fun hclosed => absurd (hopen.symm.trans hclosed) (by decide), fun _ => congrArg Host.Outcome.next e⟩
  · exact ⟨fun _ => congrArg Host.Outcome.next e, fun h => absurd (h.symm.trans hopen) (by decide)⟩

theorem frameOp_of_unaligned {s : State} (hopen : s.opened = true) (ha : ¬ Aligned s.input) :
    frameOp s = refuse s .eAlign := by
  rw [frameOp, if_neg (not_not.mpr hopen), if_pos ha]

theorem frameOp_of_tooLong {s : State} (hopen : s.opened = true) (ha : Aligned s.input)
    (hlen : s.cfg.maxDgram < hdrLen + s.input.length) : frameOp s = refuse s .eLen := by
  rw [frameOp, if_neg (not_not.mpr hopen), if_neg (not_not.mpr ha), if_pos hlen]

/-- Settles O30: the three checks, each with those before it passed. -/
theorem frameChecksInOrder : Obligations.FrameChecksInOrder := fun _ =>
  ⟨fun hclosed => congrArg Host.Outcome.next (frameOp_of_closed hclosed),
   fun hopen ha => congrArg Host.Outcome.next (frameOp_of_unaligned hopen ha),
   fun hopen ha hlen => congrArg Host.Outcome.next (frameOp_of_tooLong hopen ha hlen)⟩

/-- The state after a FRAME that goes through (R211). -/
def State.framed (s : State) : State := finishOb { s with seq := s.seq + 1 } (packetOf s) { res := .ok }

theorem framed_seq (s : State) : s.framed.seq = s.seq + 1 := rfl
theorem framed_output (s : State) : s.framed.output = packetOf s := bytes_ofBytes _

theorem exec_frame_of_ready {s : State} (h : s.FrameReady) : exec .frame s = .next s.framed :=
  congrArg Host.Outcome.next (frameOp_eq_of_ready s h)

/-- FRAME leaves what its own checks look at as it is. -/
theorem frameReady_framed {s : State} (h : s.FrameReady) : s.framed.FrameReady := h

/-- Settles O31: the packet is `packetOf`. -/
theorem frameBuildsTheCommandPacket : Obligations.FrameBuildsTheCommandPacket := fun s hw hready =>
  ⟨packetOf s, exec_frame_of_ready hready, isCommandPacket_packetOf hw hready.2.1⟩

theorem frames_succ {s : State} (h : s.FrameReady) (k : Nat) : frames (k + 1) s = frames k s.framed := by
  rw [frames, exec_frame_of_ready h]

/-- The counter after `k + 1` FRAMEs, which the last packet carries. -/
theorem frames_succ_of_ready : ∀ (k : Nat) {s : State}, s.cfg.WellFormed → s.FrameReady → ∃ t : State,
    frames (k + 1) s = .next t ∧ t.seq = s.seq + BitVec.ofNat 16 (k + 1) ∧ le16 t.output s.cfg.offSeq = t.seq
  | 0, s, hw, hready => by
    refine ⟨s.framed, frames_succ hready 0, rfl, ?_⟩
    rw [framed_output, le16_packetOf_seq hw, framed_seq]
  | k + 1, s, hw, hready => by
    obtain ⟨t, ht, hseq, hlast⟩ := frames_succ_of_ready k (s := s.framed) hw (frameReady_framed hready)
    refine ⟨t, (frames_succ hready (k + 1)).trans ht, ?_, hlast⟩
    rw [hseq, framed_seq, BitVec.add_assoc, Nat.add_comm (k + 1) 1, BitVec.ofNat_add 1 (k + 1)]
    rfl

/-- Settles O33, by induction on the number of FRAMEs. -/
theorem sequenceCounterWraps : Obligations.SequenceCounterWraps := by
  intro k s hw hready
  cases k with
  | zero => exact ⟨s, rfl, (Nat.mod_eq_of_lt s.seq.isLt).symm, nofun, nofun⟩
  | succ k =>
    obtain ⟨t, ht, hseq, hlast⟩ := frames_succ_of_ready k hw hready
    refine ⟨t, ht, by simp [hseq], fun _ => hlast, fun hk => ?_⟩
    rw [hseq, hk]
    exact BitVec.add_zero s.seq

/-- The packet of a second FRAME in a row. -/
theorem packetOf_framed (s : State) : packetOf s.framed =
    framePacket s.cfg s.ports.cmd (s.seq + 1 + 1) s.ident s.sid s.key s.iv s.input := rfl

/-- Settles O34: the second FRAME builds its packet from the same state but for the counter. -/
theorem repeatedFrameDiffersInFourBytes : Obligations.RepeatedFrameDiffersInFourBytes := by
  intro s _ hready
  obtain ⟨_, ha, _⟩ := id hready
  refine ⟨s.framed, s.framed.framed, exec_frame_of_ready hready, exec_frame_of_ready (frameReady_framed hready), ?_,
    fun a hne => ?_⟩
  · rw [framed_output, framed_output, length_packetOf s ha, length_packetOf s.framed ha]
    rfl
  · rw [framed_output, framed_output, packetOf_framed, packetOf] at hne
    by_contra hout
    obtain ⟨hseq, hcs⟩ := not_or.mp hout
    exact hne (byteAt_framePacket_seq_congr _ _ _ _ _ _ _ _ _ hseq hcs)

/-! ### DISC (R240) -/

/-- Settles O37: on 48 bytes the checksum field lies in the image; any other length is refused. -/
theorem discCompletesTheImage : Obligations.DiscCompletesTheImage := by
  refine fun s => ⟨fun hw hlen => ?_, fun hlen => congrArg Host.Outcome.next (if_pos hlen)⟩
  obtain ⟨_, _, _, _, _, _, hdisc, _⟩ := hw
  refine ⟨sealChecksum s.input s.cfg.discOffCs, congrArg Host.Outcome.next (discOp_of_length hlen),
    by rw [length_sealChecksum, hlen], ?_, fun a => byteAt_put16le_outside _ _ a _⟩
  rw [sealChecksum, le16_put16le _ _ _ (by omega), csumZeroed, toNat_csum]

/-! ### The checks of PARSE (R220, R222 to R224) -/

section
variable {s : State} (hopen : s.opened = true) (rcmd : Byte) (arm : State → Received → State)
include hopen

theorem receive_of_short (hlen : s.input.length < hdrLen) : receive s rcmd arm = parseIgnored s .short 0 0 [] := by
  simp [receive, hopen, hlen]

variable (hlen : hdrLen ≤ s.input.length)
include hlen

theorem receive_of_deviceError (herr : errorCode s.cfg s.input ≠ 0) (hstop : s.cfg.rxStopOnErr = true) :
    receive s rcmd arm =
      parseIgnored s .devErr (errorCode s.cfg s.input) rcmd [.devErr (errorCode s.cfg s.input)] := by
  simp only [receive]
  rw [if_neg (not_not.mpr hopen), if_neg (not_lt.mpr hlen), if_pos ⟨herr, hstop⟩, errorEvents, if_pos herr]

theorem receive_of_unaligned (hgo : errorCode s.cfg s.input = 0 ∨ s.cfg.rxStopOnErr = false)
    (ha : ¬ Aligned (ciphertext s.input)) : receive s rcmd arm =
      parseIgnored s .align (errorCode s.cfg s.input) rcmd (errorEvents (errorCode s.cfg s.input)) := by
  have hstop : ¬ (errorCode s.cfg s.input ≠ 0 ∧ s.cfg.rxStopOnErr = true) := by
    rw [not_and_or, not_not, Bool.not_eq_true]
    exact hgo
  simp only [receive]
  rw [if_neg (not_not.mpr hopen), if_neg (not_lt.mpr hlen), if_neg hstop, if_pos ha]

end

/-- Settles O38: the four ends of PARSE before its dispatch, each with the checks before it passed. -/
theorem malformedDatagramsAreIgnored : Obligations.MalformedDatagramsAreIgnored := by
  rintro s _ rfl
  refine ⟨fun hclosed => ?_, fun hopen hlen => ?_, fun hopen hlen herr hstop => ?_, fun hopen hlen hgo ha => ?_⟩
  · exact congrArg Host.Outcome.next (receive_of_closed hclosed _ _)
  · exact congrArg Host.Outcome.next (receive_of_short hopen _ _ hlen)
  · exact congrArg Host.Outcome.next (receive_of_deviceError hopen _ _ hlen herr hstop)
  · exact congrArg Host.Outcome.next (receive_of_unaligned hopen _ _ hlen hgo
      (by simpa [ciphertext, hdrLen, blkLen] using ha))

/-! ### The arms of PARSE (R225 to R227) -/

/-- R226. -/
theorem dispatchArm_of_handshake (s : State) {rx : Received} (h : rx.rcmd = 0xe9#8) :
    dispatchArm s rx = armHandshake s rx := if_pos h

/-- R227. -/
theorem dispatchArm_of_data (s : State) {rx : Received} (h : rx.rcmd = 0xee#8 ∨ rx.rcmd = 0xef#8) :
    dispatchArm s rx = armData s rx := by
  rw [dispatchArm, if_neg (by rcases h with h | h <;> simp [h]), if_pos h]

/-- R87: the new key is the 16 bytes of the payload from `HS_KEY_OFF`. -/
theorem byteAt_handshakeKey (c : Cfg) (pt : List Byte) {j : Nat} (hj : j < 16) :
    byteAt (handshakeKey c pt).toList j = byteAt pt (c.hsKeyOff + j) := by
  simp [handshakeKey, toBytes, slice, byteAt, hj]

/-- Settles O39: the plaintext is as long as the ciphertext, so the datagram's length says which branch the arm takes. -/
theorem handshakeReplyInstallsKeyAndSid : Obligations.HandshakeReplyInstallsKeyAndSid := by
  intro s hcmd hready
  have hlen : s.plaintext.length = s.input.length - 56 := length_plaintext s hready.2.2.2
  rw [exec_parse_of_ready hready, hcmd, dispatchArm_of_handshake s rfl, ← hlen]
  refine ⟨fun hlong => ⟨handshakeSid s.plaintext, handshakeKey s.cfg s.plaintext, fun j => byteAt_handshakeSid _,
    fun j => byteAt_handshakeKey _ _, ?_⟩, fun hshort => ?_⟩
  · exact congrArg Host.Outcome.next (if_neg (not_lt.mpr hlong))
  · exact congrArg Host.Outcome.next (if_pos hshort)

/-- Settles O40: both bytes take the arm that only reports. -/
theorem dataReplyDeliversThePlaintext : Obligations.DataReplyDeliversThePlaintext := by
  rintro s _ rfl hdata hready
  rw [exec_parse_of_ready hready, dispatchArm_of_data s hdata]
  rfl

/-! ### FRAME, then PARSE (R230) -/

/-- `t` holds the plaintext in `OB` and reports the error code, the command byte and the verdict of that byte. -/
def Reports (t : State) (rx : Received) : Prop :=
  t.output = rx.pt ∧ ∃ r, t.out = some r ∧ r.rerr = some rx.rerr ∧ r.rcmd = some rx.rcmd ∧
    r.verdict = some (verdictOf rx.rcmd)

theorem reports_parseDone (s : State) {rx : Received} {v : Verdict} (e : Event) (hv : v = verdictOf rx.rcmd) :
    Reports (parseDone s rx v e) rx :=
  ⟨bytes_ofBytes rx.pt, _, rfl, rfl, rfl, congrArg some hv⟩

/-- R225: an arm that is not a handshake too short delivers the plaintext and the verdict of R101. -/
theorem reports_dispatchArm (s : State) {rx : Received}
    (hhs : rx.rcmd = 0xe9#8 → handshakeNeed s.cfg ≤ rx.pt.length) : Reports (dispatchArm s rx) rx := by
  rcases dispatchArm_cases s rx with ⟨hcmd, e⟩ | ⟨hcmd, e⟩ | ⟨⟨hne, hee, hef⟩, e⟩ <;> rw [e]
  · rw [armHandshake, if_neg (not_lt.mpr (hhs hcmd))]
    exact reports_parseDone _ _ (by simp [verdictOf, hcmd])
  · exact reports_parseDone s _ (by rcases hcmd with h | h <;> simp [verdictOf, h])
  · exact reports_parseDone s _ (by simp [verdictOf, hne, hee, hef])

theorem errorCode_eq_zero {c : Cfg} {dgram : List Byte} (hlen : c.rerrLen = 1 ∨ c.rerrLen = 2)
    (h : ∀ j < c.rerrLen, byteAt dgram (c.offRerr + j) = 0) : errorCode c dgram = 0 := by
  have h0 : byteAt dgram c.offRerr = 0 := h 0 (by omega)
  rcases hlen with hlen | hlen
  · simp [errorCode, hlen, h0]
  · simp [errorCode, hlen, le16, h0, h 1 (by omega)]

/-- R230: where the error code overlaps no field, a packet holds the template's bytes there. -/
theorem errorCode_packetOf {s : State} (hw : s.cfg.WellFormed)
    (hapart : ∀ f ∈ s.cfg.cmdFields, Disjoint2 (s.cfg.offRerr, s.cfg.rerrLen) f)
    (hzero : ∀ j < s.cfg.rerrLen, byteAt s.cfg.hdrTemplate.toList (s.cfg.offRerr + j) = 0) :
    errorCode s.cfg (packetOf s) = 0 := by
  obtain ⟨_, _, hrerr, _, _, hlen, _⟩ := hw
  refine errorCode_eq_zero hlen fun j hj => ?_
  have hno : ¬ InField s.cfg (s.cfg.offRerr + j) := by
    rintro ⟨f, hf, hin⟩
    have hd := hapart f hf
    omega
  rw [byteAt_packetOf_template s (by omega) hno, hzero j hj]

/-- The host moves the packet of a FRAME to `IB` (R30). -/
def State.loopedBack (s : State) : State := { s.framed with ib := s.framed.ob }

theorem loopedBack_input (s : State) : s.loopedBack.input = packetOf s := bytes_ofBytes _

theorem loopedBack_ciphertext {s : State} (hw : s.cfg.WellFormed) :
    ciphertext s.loopedBack.input = cbcEnc s.key s.iv s.input := by
  rw [loopedBack_input, ciphertext, hdrLen, drop_packetOf hw]

theorem parseReady_loopedBack {s : State} (hw : s.cfg.WellFormed) (hready : s.FrameReady)
    (herr : errorCode s.cfg s.loopedBack.input = 0) : s.loopedBack.ParseReady := by
  obtain ⟨hopen, ha, _⟩ := hready
  refine ⟨hopen, ?_, .inl herr, ?_⟩
  · rw [loopedBack_input, length_packetOf s ha]
    exact Nat.le_add_right 56 _
  · rw [loopedBack_ciphertext hw, Aligned, length_cbcEnc _ _ _ ha]
    exact ha

/-- FRAME keeps `KEY` and `IV`, so PARSE deciphers what it enciphered. -/
theorem loopedBack_plaintext {s : State} (hw : s.cfg.WellFormed) (ha : Aligned s.input) :
    s.loopedBack.plaintext = s.input := by
  rw [State.plaintext, loopedBack_ciphertext hw]
  exact cbcDec_cbcEnc s.key s.iv ha

/-- Settles O46: PARSE goes through on the packet and dispatches on FRAME's command byte with FRAME's payload. -/
theorem loopBackReturnsThePayload : Obligations.LoopBackReturnsThePayload := by
  intro s hw hready hrcmd hapart hzero hhs
  have herr : errorCode s.cfg s.loopedBack.input = 0 := by
    rw [loopedBack_input, errorCode_packetOf hw hapart hzero]
  have hcmd : commandByte s.cfg s.loopedBack.input = s.ports.cmd := by
    rw [loopedBack_input, commandByte, hrcmd, byteAt_packetOf_cmd hw]
  have hparse : exec .parse s.loopedBack = .next (dispatchArm s.loopedBack ⟨0, s.ports.cmd, s.input⟩) := by
    rw [← herr, ← hcmd, ← loopedBack_plaintext hw hready.2.1]
    exact exec_parse_of_ready (parseReady_loopedBack hw hready herr)
  obtain ⟨hout, r, hr, hreport⟩ := reports_dispatchArm s.loopedBack (rx := ⟨0, s.ports.cmd, s.input⟩) hhs
  exact ⟨s.framed, _, r, exec_frame_of_ready hready, hparse, hout, hr, hreport⟩

/-! ### HELLO (R245) -/

theorem foldr_max_le_iff {b n : Nat} : ∀ {l : List Nat}, l.foldr max b ≤ n ↔ (∀ x ∈ l, x ≤ n) ∧ b ≤ n
  | [] => by simp
  | x :: l => by rw [List.foldr_cons, max_le_iff, foldr_max_le_iff, List.forall_mem_cons, and_assoc]

/-- R245: the response is long enough exactly when every mapped offset lies in it. -/
theorem helloNeed_le_iff (c : Cfg) (n : Nat) :
    helloNeed c ≤ n ↔ (∀ j : Fin 6, c.helloIdentMap.get j + 1 ≤ n) ∧ c.helloOffDevtype + 2 ≤ n := by
  rw [helloNeed, foldr_max_le_iff, List.forall_mem_map, Fin.forall_iff]
  simp only [Vector.mem_toList_iff, Vector.get_eq_getElem, Vector.mem_iff_getElem, forall_exists_index]
  rw [forall_comm]
  simp

theorem get_helloIdent (c : Cfg) (dgram : List Byte) (j : Fin 6) :
    (helloIdent c dgram).get j = byteAt dgram (c.helloIdentMap.get j) := by
  simp [helloIdent, Vector.get_eq_getElem]

/-- Settles O47: the two branches of the length check. -/
theorem helloExtractsIdentityAndType : Obligations.HelloExtractsIdentityAndType := by
  intro s
  simp only [← helloNeed_le_iff]
  refine ⟨fun hlen => ⟨helloIdent s.cfg s.input, get_helloIdent s.cfg s.input, ?_⟩, fun hlen => ?_⟩
  · exact congrArg Host.Outcome.next (if_neg (not_lt.mpr hlen))
  · exact congrArg Host.Outcome.next (if_pos (not_le.mp hlen))

end Sys2Proof.Machine

/-! PROOFS. No row stops the machine under a well-formed configuration (O56): every row ends in a next state but those that
fill `IB`, and of these the fixed payloads fit every `IB` that R9 allows, so that only a send-code can be too long. -/

namespace Sys2Proof.Machine

/-- R8, R261: the 16 bytes of a payload template fit every `IB`. -/
theorem length_pay16_le_maxDgram {c : Cfg} (hw : c.WellFormed) (code : Byte) : (pay16 code).length ≤ c.maxDgram := by
  obtain ⟨_, _, _, _, _, _, _, _, _, _, _, hmax, _⟩ := hw
  rw [length_pay16]
  omega

/-- R264: the prefix of a send-code is not empty, so its length and that of the code add up. -/
theorem length_paycode_of_wellFormed {c : Cfg} (hw : c.WellFormed) (b : List Byte) :
    (paycode c b).length = c.sendcodePrefixLen + b.length := by
  obtain ⟨_, _, _, _, _, _, _, _, _, _, _, _, hprefix⟩ := hw
  exact length_paycode c b hprefix

theorem hostFill_next {b : List Byte} {s : State} (hb : b.length ≤ s.cfg.maxDgram) : ∃ t, hostFill b s = .next t :=
  ⟨_, if_pos hb⟩

theorem send_next {b : List Byte} {s : State} (hb : b.length ≤ s.cfg.maxDgram) : ∃ t, send b s = .next t := by
  rcases send_cases b s with ⟨_, e⟩ | ⟨hlong, _⟩
  · exact ⟨_, e⟩
  · exact absurd hb (Nat.not_le.mpr hlong)

theorem exec_next_of_ne_paySendcode {s : State} (hw : s.cfg.WellFormed) :
    ∀ i : Instr, i ≠ .paySendcode → ∃ t, exec i s = .next t
  | .paySendcode, hi => absurd rfl hi
  | .payChecktemp, _ | .payEnterlearn, _ | .payCheckdata, _ | .payCancel, _ | .payRfsweep, _ | .payChecksweep, _
  | .payFindrf, _ => hostFill_next (length_pay16_le_maxDgram hw _)
  | .sendChecktemp, _ | .sendEnterlearn, _ | .sendCheckdata, _ | .sendCancel, _ | .sendRfsweep, _
  | .sendChecksweep, _ | .sendFindrf, _ => send_next (length_pay16_le_maxDgram hw _)
  | .csum, _ | .csumvfy, _ | .cbcenc, _ | .cbcdec, _ | .openOp, _ | .frame, _ | .parse, _ | .disc, _ | .hello, _
  | .opReserved _, _ | .rspHs, _ | .rspDataEe, _ | .rspDataEf, _ | .rspOther _, _ | .cmdOut, _ | .replyTemp, _
  | .replyCode, _ | .replySweep, _ | .replyRfdata, _ | .replyOther _, _ | .sendCode, _ | .vfypkt, _
  | .vfydisc, _ => ⟨_, rfl⟩

/-- Settles O56: the payload of a send-code fits `IB` or does not; every other row goes through. -/
theorem noRowStopsTheMachine : Obligations.NoRowStopsTheMachine := by
  intro i s hw
  by_cases hi : i = .paySendcode
  · subst hi
    rw [← length_paycode_of_wellFormed hw]
    rcases hostFill_cases (paycode s.cfg s.input) s with ⟨_, e⟩ | ⟨hlong, e⟩
    · exact .inl ⟨_, e⟩
    · exact .inr ⟨rfl, hlong, e⟩
  · exact .inl (exec_next_of_ne_paySendcode hw i hi)

end Sys2Proof.Machine

/-! PROOFS. Refusals and events (O44, O55): an operation of the block ends refused or with the result `OK`, and either way
its events are those that its own result calls for. `AUTH` gates nothing (O58): a check reads `OPENED` or nothing of
`STATUS`. -/

namespace Sys2Proof.Machine

/-! ### The ends of an operation (R300) -/

/-- `t` is `s` refused, or the end of an operation with a result `OK` of which `good` holds. -/
def EndsWith (good : Result → Prop) (s t : State) : Prop :=
  (∃ c, t = refuse s c) ∨ ∃ r, t.out = some r ∧ r.res = .ok ∧ good r

theorem endsWith_of_done {good : Result → Prop} {s t : State} {r : Result} (hout : t.out = some r) (hok : r.res = .ok)
    (hgood : good r) : EndsWith good s t :=
  .inr ⟨r, hout, hok, hgood⟩

/-- An operation with one check is refused or done. -/
theorem endsWith_of_cases {good : Result → Prop} {p q : Prop} {s t u : State} {c : ResCode} {r : Result}
    (h : (p ∧ t = refuse s c) ∨ (q ∧ t = u)) (hout : u.out = some r) (hok : r.res = .ok) (hgood : good r) :
    EndsWith good s t := by
  rcases h with ⟨_, e⟩ | ⟨_, rfl⟩
  · exact .inl ⟨c, e⟩
  · exact endsWith_of_done hout hok hgood

/-! ### Events (R221, R223, R305) -/

/-- What R305 says of the result of operation `i` on `s`; that there are at most two events holds of every result. -/
def FollowsReport (i : Instr) (s : State) (r : Result) : Prop :=
  r.events = eventsOf r ∧ (i ≠ .parse → r.events = []) ∧ (r.events.length = 2 → s.cfg.rxStopOnErr = false)

theorem length_errorEvents_le_one (rerr : Half) : (errorEvents rerr).length ≤ 1 := by
  unfold errorEvents
  split <;> simp

/-- R305: at most one event for the error code and one for the verdict. -/
theorem length_eventsOf_le_two (r : Result) : (eventsOf r).length ≤ 2 := by
  rw [eventsOf, List.length_append]
  refine Nat.add_le_add (b := 1) (d := 1) ?_ ?_
  · split
    · exact length_errorEvents_le_one _
    · exact Nat.zero_le 1
  · split <;> simp

theorem followsReport_of_silent {i : Instr} {s : State} {r : Result} (hevents : r.events = [])
    (hnone : eventsOf r = []) : FollowsReport i s r :=
  ⟨hevents.trans hnone.symm, fun _ => hevents, fun htwo => by simp [hevents] at htwo⟩

/-- R221, R304: a PARSE that ignores the datagram reports at most its error code. -/
theorem endsWith_parseIgnored (s : State) (why : Why) (rerr : Half) (rcmd : Byte) :
    EndsWith (FollowsReport .parse s) s (parseIgnored s why rerr rcmd (errorEvents rerr)) := by
  refine endsWith_of_done (finishOb_out ..) rfl ⟨(List.append_nil _).symm, (absurd rfl ·), fun htwo => ?_⟩
  have hone := length_errorEvents_le_one rerr
  exact absurd (htwo.symm.trans_le hone) (by decide)

/-- R221, R223: after an error code the dispatch is reached with `RX_STOP_ON_ERR` clear only. -/
theorem endsWith_parseDone {s u : State} {rx : Received} {verdict : Verdict} {event : Event}
    (hgo : rx.rerr = 0 ∨ s.cfg.rxStopOnErr = false)
    (hevent : eventsOf { res := .ok, verdict := some verdict, rcmd := some rx.rcmd } = [event]) :
    EndsWith (FollowsReport .parse s) s (parseDone u rx verdict event) := by
  refine endsWith_of_done (finishOb_out ..) rfl
    ⟨congrArg (errorEvents rx.rerr ++ ·) hevent.symm, (absurd rfl ·), fun htwo => hgo.resolve_left fun hzero => ?_⟩
  simp [errorEvents, hzero] at htwo

theorem endsWith_armHandshake {s : State} {rx : Received} (hgo : rx.rerr = 0 ∨ s.cfg.rxStopOnErr = false) :
    EndsWith (FollowsReport .parse s) s (armHandshake s rx) := by
  rcases armHandshake_cases s rx with ⟨_, e⟩ | ⟨_, e⟩ <;> rw [e]
  · exact endsWith_parseIgnored s _ _ _
  · exact endsWith_parseDone hgo rfl

theorem endsWith_dispatchArm {s : State} {rx : Received} (hgo : rx.rerr = 0 ∨ s.cfg.rxStopOnErr = false) :
    EndsWith (FollowsReport .parse s) s (dispatchArm s rx) := by
  rcases dispatchArm_cases s rx with ⟨_, e⟩ | ⟨_, e⟩ | ⟨_, e⟩ <;> rw [e]
  · exact endsWith_armHandshake hgo
  · exact endsWith_parseDone hgo rfl
  · exact endsWith_parseDone hgo rfl

/-- The receive path by its events: a datagram that it ignores gives those of its error code, none before the code is
read; the arm is reached after an error code with `RX_STOP_ON_ERR` clear only. -/
theorem receive_events_cases (s : State) (rcmd : Byte) (arm : State → Received → State) :
    receive s rcmd arm = refuse s .eState ∨
    (∃ why rerr cmd, receive s rcmd arm = parseIgnored s why rerr cmd (errorEvents rerr)) ∨
    ((errorCode s.cfg s.input = 0 ∨ s.cfg.rxStopOnErr = false) ∧
      receive s rcmd arm = arm s ⟨errorCode s.cfg s.input, rcmd, s.plaintext⟩) := by
  simp only [receive]
  split
  · exact .inl rfl
  split
  · exact .inr (.inl ⟨.short, 0, 0, rfl⟩)
  split
  · exact .inr (.inl ⟨.devErr, _, rcmd, rfl⟩)
  next hstop =>
    have hgo : errorCode s.cfg s.input = 0 ∨ s.cfg.rxStopOnErr = false := by
      rwa [not_and_or, not_not, Bool.not_eq_true] at hstop
    split
    · exact .inr (.inl ⟨.align, _, rcmd, rfl⟩)
    · exact .inr (.inr ⟨hgo, rfl⟩)

/-- R220 to R228, R305: every end of PARSE. -/
theorem endsWith_parse (s : State) :
    EndsWith (FollowsReport .parse s) s (receive s (commandByte s.cfg s.input) dispatchArm) := by
  rcases receive_events_cases s (commandByte s.cfg s.input) dispatchArm with
    e | ⟨why, rerr, cmd, e⟩ | ⟨hgo, e⟩ <;> rw [e]
  · exact .inl ⟨_, rfl⟩
  · exact endsWith_parseIgnored s why rerr cmd
  · exact endsWith_dispatchArm hgo

theorem endsWith_frameOp {good : Result → Prop} (s : State) (hgood : good { res := .ok }) :
    EndsWith good s (frameOp s) := by
  rcases frameOp_cases s with ⟨_, c, e⟩ | ⟨_, e⟩
  · exact .inl ⟨c, e⟩
  · exact e ▸ endsWith_of_done (finishOb_out ..) rfl hgood

theorem endsWith_helloOp (s : State) : EndsWith (FollowsReport .hello s) s (helloOp s) := by
  rcases helloOp_cases s with ⟨_, e⟩ | ⟨_, e⟩ <;> rw [e] <;>
    exact endsWith_of_done rfl rfl (followsReport_of_silent rfl rfl)

/-- How each operation of the block ends. -/
theorem exec_op_ends {i : Instr} {s t : State} (hi : i.format = .op) (h : exec i s = .next t) :
    EndsWith (FollowsReport i s) s t := by
  cases i with
  | csum => cases h; exact endsWith_of_done (finish_out ..) rfl (followsReport_of_silent rfl rfl)
  | csumvfy => cases h; exact endsWith_of_cases (csumvfyOp_cases s) rfl rfl (followsReport_of_silent rfl rfl)
  | cbcenc => cases h; exact endsWith_of_cases (cbcencOp_cases s) rfl rfl (followsReport_of_silent rfl rfl)
  | cbcdec => cases h; exact endsWith_of_cases (cbcdecOp_cases s) rfl rfl (followsReport_of_silent rfl rfl)
  | openOp => cases h; exact endsWith_of_cases (openSession_cases s) rfl rfl (followsReport_of_silent rfl rfl)
  | frame => cases h; exact endsWith_frameOp s (followsReport_of_silent rfl rfl)
  | parse => cases h; exact endsWith_parse s
  | disc => cases h; exact endsWith_of_cases (discOp_cases s) rfl rfl (followsReport_of_silent rfl rfl)
  | hello => cases h; exact endsWith_helloOp s
  | opReserved op => cases h; exact .inl ⟨.eOp, rfl⟩
  | _ => cases hi

/-- Settles O44: a refusal reports nothing, and every other end of an operation follows its report. -/
theorem eventsFollowTheReport : Obligations.EventsFollowTheReport := by
  intro i s t r hi h hout
  have hfollows : FollowsReport i s r := by
    rcases exec_op_ends hi h with ⟨c, rfl⟩ | ⟨r', hout', _, hgood⟩
    · cases hout
      exact followsReport_of_silent rfl rfl
    · exact Option.some.inj (hout'.symm.trans hout) ▸ hgood
  obtain ⟨hevents, hparse, hstop⟩ := hfollows
  exact ⟨hevents, hparse, hevents ▸ length_eventsOf_le_two r, hstop⟩

/-- Settles O55: of the two ways an operation ends, the one with another result than `OK` is the refusal. -/
theorem refusalChangesNothing : Obligations.RefusalChangesNothing := by
  intro i s t r hi h hout hne
  rcases exec_op_ends hi h with ⟨c, rfl⟩ | ⟨r', hout', hok, _⟩
  · cases hout
    rfl
  · exact absurd (Option.some.inj (hout.symm.trans hout') ▸ hok) hne

/-! ### What two states that differ in `STATUS` do (R25, R314) -/

/-- `s` with other contents of `STATUS`. -/
def State.withStatus (s : State) (b : Byte) : State := { s with status := b }

/-- `t` and `u` are the same up to `STATUS`. -/
def SameButStatus (t u : State) : Prop := t.withStatus 0 = u.withStatus 0

/-- Two ends that branch on equivalent checks are the same if they are on each branch. -/
theorem SameButStatus.ite {p q : Prop} [Decidable p] [Decidable q] {t t' u u' : State} (hpq : p ↔ q)
    (ht : SameButStatus t u) (ht' : SameButStatus t' u') :
    SameButStatus (if p then t else t') (if q then u else u') := by
  by_cases hq : q
  · rwa [if_pos hq, if_pos (hpq.mpr hq)]
  · rwa [if_neg hq, if_neg (hq ∘ hpq.mp)]

section
variable (s : State) (b : Byte)

theorem csumvfyOp_status : SameButStatus (csumvfyOp (s.withStatus b)) (csumvfyOp s) := .ite .rfl rfl rfl

theorem cbcencOp_status : SameButStatus (cbcencOp (s.withStatus b)) (cbcencOp s) := .ite .rfl rfl rfl

theorem cbcdecOp_status : SameButStatus (cbcdecOp (s.withStatus b)) (cbcdecOp s) := .ite .rfl rfl rfl

theorem discOp_status : SameButStatus (discOp (s.withStatus b)) (discOp s) := .ite .rfl rfl rfl

theorem helloOp_status : SameButStatus (helloOp (s.withStatus b)) (helloOp s) := .ite .rfl rfl rfl

theorem armHandshake_status (rx : Received) :
    SameButStatus (armHandshake (s.withStatus b) rx) (armHandshake s rx) := .ite .rfl rfl rfl

theorem dispatchArm_status (rx : Received) : SameButStatus (dispatchArm (s.withStatus b) rx) (dispatchArm s rx) :=
  .ite .rfl (armHandshake_status s b rx) (.ite .rfl rfl rfl)

end

section
variable {s : State} {b : Byte} (h : b.getLsbD 0 = s.status.getLsbD 0)
include h

theorem opened_withStatus_iff : (s.withStatus b).opened = true ↔ s.opened = true := Bool.eq_iff_iff.mp h

theorem openSession_status : SameButStatus (openSession (s.withStatus b)) (openSession s) :=
  .ite (opened_withStatus_iff h) rfl rfl

theorem frameOp_status : SameButStatus (frameOp (s.withStatus b)) (frameOp s) :=
  .ite (not_congr (opened_withStatus_iff h)) rfl (.ite .rfl rfl (.ite .rfl rfl rfl))

theorem receive_status (rcmd : Byte) {arm : State → Received → State}
    (harm : ∀ rx, SameButStatus (arm (s.withStatus b) rx) (arm s rx)) :
    SameButStatus (receive (s.withStatus b) rcmd arm) (receive s rcmd arm) :=
  .ite (not_congr (opened_withStatus_iff h)) rfl (.ite .rfl rfl (.ite .rfl rfl (.ite .rfl rfl (harm _))))

end

/-- Two outcomes are the same up to `STATUS`. -/
def OutcomesSameButStatus (o o' : Outcome) : Prop :=
  mapNext (State.withStatus · 0) o = mapNext (State.withStatus · 0) o'

theorem SameButStatus.next {t u : State} (h : SameButStatus t u) : OutcomesSameButStatus (.next t) (.next u) :=
  congrArg Host.Outcome.next h

theorem hostFill_withStatus (p : List Byte) (s : State) (b : Byte) :
    hostFill p (s.withStatus b) = mapNext (State.withStatus · b) (hostFill p s) := by
  unfold hostFill
  rw [apply_ite (mapNext (State.withStatus · b))]
  rfl

theorem hostFill_status (p : List Byte) (s : State) (b : Byte) :
    OutcomesSameButStatus (hostFill p (s.withStatus b)) (hostFill p s) := by
  rw [hostFill_withStatus]
  rcases hostFill_cases p s with ⟨_, e⟩ | ⟨_, e⟩ <;> rw [e] <;> rfl

theorem send_status {s : State} {b : Byte} (h : b.getLsbD 0 = s.status.getLsbD 0) (p : List Byte) :
    OutcomesSameButStatus (send p (s.withStatus b)) (send p s) := by
  unfold send
  rw [hostFill_withStatus]
  rcases hostFill_cases p s with ⟨_, e⟩ | ⟨_, e⟩ <;> rw [e]
  · exact (frameOp_status (s := driveFrame outerCommand { s with ib := Memory.ofBytes p }) h).next
  · rfl

theorem exec_status {s : State} {b : Byte} (h : b.getLsbD 0 = s.status.getLsbD 0) :
    ∀ i : Instr, OutcomesSameButStatus (exec i (s.withStatus b)) (exec i s)
  | .csum | .opReserved _ => rfl
  | .csumvfy => (csumvfyOp_status s b).next
  | .cbcenc => (cbcencOp_status s b).next
  | .cbcdec => (cbcdecOp_status s b).next
  | .openOp => (openSession_status h).next
  | .frame => (frameOp_status h).next
  | .parse => (receive_status h _ (dispatchArm_status s b)).next
  | .disc => (discOp_status s b).next
  | .hello => (helloOp_status s b).next
  | .rspHs => (receive_status h _ (armHandshake_status s b)).next
  | .rspDataEe | .rspDataEf => (receive_status h _ (arm := armData) fun _ => rfl).next
  | .rspOther _ => (receive_status h _ (arm := armUnknown) fun _ => rfl).next
  | .cmdOut | .sendCode => (frameOp_status (s := driveFrame outerCommand s) h).next
  | .payChecktemp | .paySendcode | .payEnterlearn | .payCheckdata | .payCancel | .payRfsweep | .payChecksweep
  | .payFindrf => hostFill_status _ s b
  | .replyTemp | .replyCode | .replySweep | .replyRfdata | .replyOther _ => rfl
  | .sendChecktemp | .sendEnterlearn | .sendCheckdata | .sendCancel | .sendRfsweep | .sendChecksweep
  | .sendFindrf => send_status h _
  | .vfypkt => (csumvfyOp_status (driveCsumvfy s.cfg.offPktcs s) b).next
  | .vfydisc => (csumvfyOp_status (driveCsumvfy s.cfg.discOffCs s) b).next

/-- Settles O58: two states with the same `OPENED` take the same way through every check. -/
theorem authGatesNothing : Obligations.AuthGatesNothing := fun i _ _ h => exec_status h i

end Sys2Proof.Machine

/-! PROOFS. The rows that the host runs as steps of their own: the response command rows are PARSE under a given command
byte (O42, O43), the payload and SEND rows fill `IB` with a template (O48, O49, O50), CMD.OUT, SEND.CODE and the VFY rows
drive the ports (O32, O51); the host actions (O4, O5, O6) and the data replies (O52). -/

namespace Sys2Proof.Machine

/-! ### The response command rows (R101, R225) -/

/-- The receive path runs its arm on what was received under `rcmd` only. -/
theorem receive_congr {s : State} {rcmd : Byte} {arm arm' : State → Received → State}
    (h : ∀ rx, rx.rcmd = rcmd → arm s rx = arm' s rx) : receive s rcmd arm = receive s rcmd arm' := by
  simp only [receive, h]

/-- PARSE and the response command rows are one operation: the receive path under the row's command byte, then the
dispatch on it. -/
theorem exec_of_receivedCommand {s : State} {i : Instr} {cmd : Byte} (hwf : i.wf = true)
    (hcmd : receivedCommand s i = some cmd) : exec i s = .next (receive s cmd dispatchArm) := by
  cases i <;> cases hcmd
  case parse => rfl
  case rspHs => exact congrArg Host.Outcome.next (receive_congr fun _ h => (dispatchArm_of_handshake s h).symm)
  case rspDataEe => exact congrArg Host.Outcome.next (receive_congr fun _ h => (dispatchArm_of_data s (.inl h)).symm)
  case rspDataEf => exact congrArg Host.Outcome.next (receive_congr fun _ h => (dispatchArm_of_data s (.inr h)).symm)
  case rspOther =>
    have hunknown : cmd ∉ definedRspCmds := wf_rspOther_iff.mp hwf
    exact congrArg Host.Outcome.next (receive_congr fun _ h => (dispatchArm_of_unknown s (h ▸ hunknown)).symm)

theorem receivedCommand_of_rspcmd (s : State) {i : Instr} (h : i.format = .rspcmd) :
    receivedCommand s i = some (encode i) := by
  cases i <;> simp_all [Instr.format, receivedCommand, encode]

/-- Settles O42: the decoded row receives under the byte it was decoded from. -/
theorem parseRunsTheDecodedResponseRow : Obligations.ParseRunsTheDecodedResponseRow := by
  intro s
  obtain ⟨hwf, hformat, hbyte⟩ := isRowOf_decodeRsp (commandByte s.cfg s.input)
  rw [exec_of_receivedCommand hwf (receivedCommand_of_rspcmd s hformat), hbyte]
  rfl

/-! ### A datagram with another command byte -/

/-- `s` with another buffer `IB`. -/
def State.withIb (s : State) (m : Memory) : State := { s with ib := m }

theorem withIb_input (s : State) (b : List Byte) : (s.withIb (Memory.ofBytes b)).input = b := bytes_ofBytes b

theorem withIb_of_ib_eq {s : State} {m : Memory} (h : s.ib = m) : s.withIb m = s := by
  subst h
  rfl

theorem withIb_ite (c : Prop) [Decidable c] (t u : State) (m : Memory) :
    (if c then t else u).withIb m = if c then t.withIb m else u.withIb m :=
  apply_ite (State.withIb · m) c t u

/-- The dispatch works on what was received, not on `IB`. -/
theorem dispatchArm_withIb (s : State) (m : Memory) (rx : Received) :
    dispatchArm (s.withIb m) rx = (dispatchArm s rx).withIb m := by
  simp only [dispatchArm, armHandshake, withIb_ite]
  rfl

/-- The receive path looks at the datagram's length, error code and ciphertext, and at the command byte of a datagram with
a header. -/
theorem receive_withIb {s : State} {b : List Byte} {cmd cmd' : Byte} (hlen : b.length = s.input.length)
    (herr : errorCode s.cfg b = errorCode s.cfg s.input) (hct : ciphertext b = ciphertext s.input)
    (hcmd : hdrLen ≤ s.input.length → cmd' = cmd) :
    receive (s.withIb (Memory.ofBytes b)) cmd' dispatchArm =
      (receive s cmd dispatchArm).withIb (Memory.ofBytes b) := by
  by_cases hheader : hdrLen ≤ s.input.length
  · obtain rfl := hcmd hheader
    simp only [receive, withIb_input, withIb_ite, dispatchArm_withIb, hlen]
    rw [show (s.withIb (Memory.ofBytes b)).cfg = s.cfg from rfl, herr, hct]
    rfl
  · cases hopen : s.opened
    · rw [receive_of_closed hopen, receive_of_closed (s := s.withIb (Memory.ofBytes b)) hopen]
      rfl
    · rw [receive_of_short hopen _ _ (not_le.mp hheader),
        receive_of_short (s := s.withIb (Memory.ofBytes b)) hopen _ _ (by rwa [withIb_input, hlen, ← not_le])]
      rfl

section
variable {c : Cfg} (hw : c.WellFormed) (dgram : List Byte) (cmd : Byte)
include hw

/-- R9: the command byte lies outside the error code. -/
theorem errorCode_putByte_rcmd : errorCode c (putByte dgram c.offRcmd cmd) = errorCode c dgram := by
  obtain ⟨_, _, _, _, hapart, hlen, _⟩ := hw
  have hfirst : byteAt (putByte dgram c.offRcmd cmd) c.offRerr = byteAt dgram c.offRerr :=
    byteAt_putByte_ne _ _ _ _ (by omega)
  rcases hlen with hlen | hlen
  · simp [errorCode, hlen, hfirst]
  · simp only [errorCode, if_pos hlen, le16, hfirst]
    rw [byteAt_putByte_ne _ _ _ _ (by omega)]

/-- R9: the command byte lies in the header. -/
theorem ciphertext_putByte_rcmd : ciphertext (putByte dgram c.offRcmd cmd) = ciphertext dgram := by
  obtain ⟨_, _, _, hrcmd, _⟩ := hw
  exact List.drop_set_of_lt hrcmd

theorem commandByte_putByte_rcmd (hheader : hdrLen ≤ dgram.length) :
    commandByte c (putByte dgram c.offRcmd cmd) = cmd := by
  obtain ⟨_, _, _, hrcmd, _⟩ := hw
  exact byteAt_putByte_self _ _ _ (Nat.lt_of_lt_of_le hrcmd hheader)

end

/-- PARSE of a datagram with `cmd` at `OFF_RCMD` is the receive path under `cmd`, but for `IB`. -/
theorem exec_parse_putByte_rcmd {s : State} (hw : s.cfg.WellFormed) (cmd : Byte) :
    exec .parse (s.withIb (Memory.ofBytes (putByte s.input s.cfg.offRcmd cmd))) =
      .next ((receive s cmd dispatchArm).withIb (Memory.ofBytes (putByte s.input s.cfg.offRcmd cmd))) := by
  refine congrArg Host.Outcome.next (receive_withIb (length_putByte ..) (errorCode_putByte_rcmd hw _ _)
    (ciphertext_putByte_rcmd hw _ _) fun hheader => ?_)
  rw [withIb_input]
  exact commandByte_putByte_rcmd hw _ _ hheader

theorem receive_ib (s : State) (rcmd : Byte) : (receive s rcmd dispatchArm).ib = s.ib :=
  receive_writes s rcmd (dispatchArm_writes s) (by simp) .ib (by simp)

/-- Settles O43: a response command row is the receive path under its byte, and so is PARSE of the datagram with that byte
in its place. -/
theorem responseRowsReceiveUnderTheirByte : Obligations.ResponseRowsReceiveUnderTheirByte := by
  intro s i cmd hw hwf _ hcmd
  rw [exec_of_receivedCommand hwf hcmd]
  refine ⟨⟨_, exec_parse_putByte_rcmd hw cmd, ?_⟩, fun hready hhs => ?_⟩
  · exact congrArg Host.Outcome.next (withIb_of_ib_eq (receive_ib s cmd)).symm
  · have hlen : s.plaintext.length = s.input.length - 56 := length_plaintext s hready.2.2.2
    obtain ⟨hpt, r, hr, _, hrcmd, hverdict⟩ := reports_dispatchArm s
      (rx := ⟨errorCode s.cfg s.input, cmd, s.plaintext⟩) fun h => (hhs h).trans_eq hlen.symm
    exact ⟨_, r, congrArg Host.Outcome.next (receive_of_ready s cmd dispatchArm hready), hpt, hr, hrcmd, hverdict⟩

/-! ### The payload templates (R261 to R271) -/

@[simp] theorem sumBytes_zeros (n : Nat) : sumBytes (zeros n) = 0 := by simp [sumBytes, zeros]

@[simp] theorem byteAt_zeros (n j : Nat) : byteAt (zeros n) j = 0 := by
  rw [byteAt, List.getD_eq_getElem?_getD]
  exact List.getElem?_getD_replicate_default_eq _ n j

/-- R261: the seed and a code are too small to carry out of 16 bits. -/
theorem toNat_csum_pay16 (code : Byte) : (csum (pay16 code)).toNat = 0xBEAF + code.toNat := by
  rw [toNat_csum, pay16, sumBytes_cons, sumBytes_zeros]
  omega

theorem byteAt_pay16_of_pos (code : Byte) {j : Nat} (h : 0 < j) : byteAt (pay16 code) j = 0 := by
  obtain ⟨k, rfl⟩ := Nat.exists_eq_add_of_le' h
  exact byteAt_zeros 15 k

theorem exec_payRow (s : State) : ∀ row ∈ payRows, exec row.1 s = hostFill (pay16 row.2) s := by
  simp only [payRows, List.forall_mem_cons]
  exact ⟨rfl, rfl, rfl, rfl, rfl, rfl, rfl, nofun⟩

theorem hostFill_of_length_le {b : List Byte} {s : State} (h : b.length ≤ s.cfg.maxDgram) :
    hostFill b s = .next (s.withIb (Memory.ofBytes b)) := if_pos h

theorem hostFill_of_lt_length {b : List Byte} {s : State} (h : s.cfg.maxDgram < b.length) :
    hostFill b s = .refused .inputTooLong := if_neg (Nat.not_le.mpr h)

/-- Settles O48: the payload is `pay16`. -/
theorem payTemplatesFillIb : Obligations.PayTemplatesFillIb := by
  intro s i code hw hrow
  refine ⟨pay16 code, ?_, length_pay16 code, rfl, fun j => byteAt_pay16_of_pos code, toNat_csum_pay16 code⟩
  exact (exec_payRow s _ hrow).trans (hostFill_of_length_le (length_pay16_le_maxDgram hw code))

/-! ### The send-code payload (R264) -/

/-- R264: 0x02 and zeros, then the code. -/
theorem paycode_eq_append (c : Cfg) (code : List Byte) :
    paycode c code = (0x02#8 :: zeros (c.sendcodePrefixLen - 1)) ++ code := rfl

theorem length_sendcodePrefix {c : Cfg} (hw : c.WellFormed) :
    (0x02#8 :: zeros (c.sendcodePrefixLen - 1)).length = c.sendcodePrefixLen := by
  simpa [paycode] using length_paycode_of_wellFormed hw []

theorem byteAt_paycode_of_pos {c : Cfg} (hw : c.WellFormed) (code : List Byte) {j : Nat} (hpos : 0 < j)
    (hj : j < c.sendcodePrefixLen) : byteAt (paycode c code) j = 0 := by
  obtain ⟨k, rfl⟩ := Nat.exists_eq_add_of_le' hpos
  rw [paycode_eq_append, byteAt_append_left (by rwa [length_sendcodePrefix hw])]
  exact byteAt_zeros _ k

/-- Settles O49: the payload is `paycode`. -/
theorem sendcodePrefixesTheCode : Obligations.SendcodePrefixesTheCode := by
  intro s hw
  have hlen : (paycode s.cfg s.input).length = s.cfg.sendcodePrefixLen + s.input.length :=
    length_paycode_of_wellFormed hw s.input
  rw [← hlen]
  refine ⟨fun hfits => ?_, fun hlong => hostFill_of_lt_length hlong⟩
  exact ⟨paycode s.cfg s.input, hostFill_of_length_le hfits, rfl, rfl,
    fun j => byteAt_paycode_of_pos hw s.input, List.drop_left' (length_sendcodePrefix hw)⟩

/-! ### The rows that frame under 0x6a (R102, R113) -/

/-- Settles O32: both rows are FRAME on the ports as driven. -/
theorem outerCommandFramesUnder6a : Obligations.OuterCommandFramesUnder6a := by
  intro s d i hi hd
  obtain rfl : d = driveFrame outerCommand s := hd
  have hexec : exec i s = .next (frameOp (driveFrame outerCommand s)) := by
    rcases hi with rfl | rfl <;> rfl
  rw [hexec]
  refine ⟨fun hw hready => ⟨packetOf (driveFrame outerCommand s), ?_, ?_⟩, fun hclosed => ?_, fun hopen ha => ?_,
    fun hopen ha hlen => ?_⟩
  · exact congrArg Host.Outcome.next (frameOp_eq_of_ready (driveFrame outerCommand s) hready)
  · exact isCommandPacket_packetOf (s := driveFrame outerCommand s) hw hready.2.1
  · exact congrArg Host.Outcome.next (frameOp_of_closed (s := driveFrame outerCommand s) hclosed)
  · exact congrArg Host.Outcome.next (frameOp_of_unaligned (s := driveFrame outerCommand s) hopen ha)
  · exact congrArg Host.Outcome.next (frameOp_of_tooLong (s := driveFrame outerCommand s) hopen ha hlen)

theorem exec_sendRow (s : State) : ∀ row ∈ sendRows, exec row.1 s = send (pay16 row.2) s := by
  simp only [sendRows, List.forall_mem_cons]
  exact ⟨rfl, rfl, rfl, rfl, rfl, rfl, rfl, nofun⟩

/-- R113: a SEND row of a template is SEND.CODE after the host filled `IB`. -/
theorem exec_sendRow_eq_sendCode {s : State} (hw : s.cfg.WellFormed) {i : Instr} {code : Byte}
    (hrow : (i, code) ∈ sendRows) : exec i s = exec .sendCode (s.withIb (Memory.ofBytes (pay16 code))) := by
  rw [exec_sendRow s _ hrow, send, hostFill_of_length_le (length_pay16_le_maxDgram hw code)]
  rfl

/-- R8, R261: in an open session a template is framed. -/
theorem frameReady_pay16 {s : State} (hw : s.cfg.WellFormed) (hopen : s.opened = true) (code : Byte) :
    (s.withIb (Memory.ofBytes (pay16 code))).FrameReady := by
  obtain ⟨_, _, _, _, _, _, _, _, _, _, _, hmax, _⟩ := hw
  exact frameReady_fill hopen (by simp [Aligned, blkLen]) (by simpa [hdrLen] using hmax)

/-- Settles O50: SEND.CODE on the template. -/
theorem sendRowsFrameTheirTemplate : Obligations.SendRowsFrameTheirTemplate := by
  intro s d i code hw hrow hd
  obtain ⟨hframed, hclosed, _⟩ := outerCommandFramesUnder6a (s.withIb (Memory.ofBytes (pay16 code))) d .sendCode
    (.inr rfl) hd
  rw [exec_sendRow_eq_sendCode hw hrow]
  refine ⟨fun hopen => ?_, hclosed⟩
  obtain ⟨p, hnext, hpacket⟩ := hframed hw (frameReady_pay16 hw hopen code)
  rw [withIb_input] at hpacket
  refine ⟨p, hnext, hpacket, ?_⟩
  calc (le16 p s.cfg.offPaycs).toNat = (csum (pay16 code)).toNat := congrArg _ hpacket.payloadChecksum
    _ = 0xBEAF + code.toNat := toNat_csum_pay16 code

/-! ### VFYPKT and VFYDISC (R113, R127) -/

/-- Settles O51: both rows are CSUMVFY on the ports as driven. -/
theorem verifyRowsCheckTheirField : Obligations.VerifyRowsCheckTheirField := by
  intro s i off hi
  have hexec : exec i s = .next (csumvfyOp (driveCsumvfy off s)) := by
    rcases hi with ⟨rfl, rfl⟩ | ⟨rfl, rfl⟩ <;> rfl
  rw [hexec]
  refine ⟨fun hin => ⟨csumZeroed s.input off, toNat_csum _, ?_⟩, fun hout => ?_⟩
  · exact congrArg Host.Outcome.next (csumvfyOp_of_inside (s := driveCsumvfy off s) hin)
  · exact congrArg Host.Outcome.next (csumvfyOp_of_outside (s := driveCsumvfy off s) hout)

/-! ### The host actions (R27, R30, R31, R35, R113, R274) -/

section
variable {s : State}

theorem perform_issue {p : Ports} (h : p.off < s.cfg.maxDgram) :
    perform (.issue p) s = exec (decodeOp p.op) (s.withPorts p) := if_pos h

theorem perform_issue_of_off_ge {p : Ports} (h : s.cfg.maxDgram ≤ p.off) :
    perform (.issue p) s = .refused .offsetTooLarge := if_neg (Nat.not_lt.mpr h)

theorem perform_row {i : Instr} (h : i.wf = true) : perform (.perform i) s = exec i s := if_pos h

theorem perform_row_of_ill_formed {i : Instr} (h : i.wf = false) :
    perform (.perform i) s = .refused .illFormedInstruction := if_neg (by simp [h])

theorem perform_decodeData_of_reply {param : Byte} {pt : List Byte} (hreply : s.dataReply = true)
    (hout : s.output = param :: pt) : perform .decodeData s = exec (decodeReply param) s := by
  simp [perform, replyRow, hreply, hout]

theorem perform_decodeData_of_no_reply (h : s.dataReply = false ∨ s.output = []) :
    perform .decodeData s = .next (setNote s none) := by
  rcases replyRow_cases s with ⟨_, e⟩ | ⟨_, _, hreply, hout, _⟩
  · rw [perform, e]
  · simp [hreply, hout] at h

end

/-- Settles O4: the action is taken from the queue, its offset fits the port. -/
theorem stepRunsTheDecodedOperation : Obligations.StepRunsTheDecodedOperation :=
  fun s _ rest hw hoff hq => (step_of_queue hw hq).trans (perform_issue (s := s.withQueue rest) hoff)

/-- Settles O5: a step performs the action it takes from the queue. -/
theorem stepPerformsTheHostAction : Obligations.StepPerformsTheHostAction := by
  intro s rest
  refine ⟨step_idle, step_of_queue, fun _ hw hq hb => ?fill, fun _ hw hq hb => ?fillTooLong, fun _ hw hq hoff => ?offset,
    fun _ hw hq hwf => ?row, fun _ hw hq hwf => ?illFormed, fun _ _ hw hq hreply hout => ?reply,
    fun hw hq hno => ?noReply, step_ill_formed⟩
  case fill => exact (step_of_queue hw hq).trans (hostFill_of_length_le hb)
  case fillTooLong => exact (step_of_queue hw hq).trans (hostFill_of_lt_length hb)
  case offset => exact (step_of_queue hw hq).trans (perform_issue_of_off_ge hoff)
  case row => exact (step_of_queue hw hq).trans (perform_row hwf)
  case illFormed => exact (step_of_queue hw hq).trans (perform_row_of_ill_formed hwf)
  case reply => exact (step_of_queue hw hq).trans (perform_decodeData_of_reply hreply hout)
  case noReply => exact (step_of_queue hw hq).trans (perform_decodeData_of_no_reply hno)

/-- Settles O6: the two ways into reset agree on what R35 gives. -/
theorem resetLoadsTheConfiguredValues : Obligations.ResetLoadsTheConfiguredValues := by
  rintro s hw t (rfl | ⟨rest, hq, ht⟩)
  · exact ⟨rfl, rfl, rfl, rfl, rfl, rfl, rfl⟩
  · obtain rfl : hostReset (s.withQueue rest) = t := Host.Outcome.next.inj ((step_of_queue hw hq).symm.trans ht)
    exact ⟨rfl, rfl, rfl, rfl, rfl, rfl, rfl⟩

/-! ### Data replies (R274 to R279) -/

theorem next_setNote_congr {s : State} {n m : Option Notification} (h : n = m) :
    (.next (setNote s n) : Outcome) = .next (setNote s m) := h ▸ rfl

/-- Settles O52: the length check of each decoding. -/
theorem replyRowsDeriveNotifications : Obligations.ReplyRowsDeriveNotifications := by
  intro s param
  refine ⟨fun h => next_setNote_congr ?temp, fun h => next_setNote_congr (if_pos h), fun h => next_setNote_congr ?code,
    fun h => next_setNote_congr (if_pos h), fun h => next_setNote_congr ?sweep, fun h => next_setNote_congr (if_pos h),
    fun hne h => next_setNote_congr ?rfdata, fun h => next_setNote_congr (if_pos h), rfl⟩
  case temp => exact if_neg (Nat.not_lt.mpr h)
  case code => exact if_neg (Nat.not_lt.mpr h)
  case sweep => exact if_neg (Nat.not_le.mpr h)
  case rfdata => exact if_neg (not_or.mpr ⟨hne, Nat.not_lt.mpr h⟩)

end Sys2Proof.Machine
